-- ==== Sys2Proof/Word.lean ====
section
/-! DEFINITION. The word types of the command port and of the buffers (spec/00_scope.md section 4, R7; D3). -/

namespace Sys2Proof

/-- A command word or a response word: 32 bits, bit 0 the least significant (R7, R56). -/
abbrev Word := BitVec 32

/-- A buffer element, a FIFO entry, a byte on the wire (R50). -/
abbrev Byte := BitVec 8

/-- An endpoint index: 4 bits (00_scope.md section 4, R63). -/
abbrev Endpoint := BitVec 4

end Sys2Proof
end

