-- ==== Sys2Proof/Config.lean ====
section
/-! DEFINITION. The parameters of one block instance (spec/00_scope.md section 4), the agents' steps a run is made of
(R43, R146) and the free values: what the spec leaves to a draw or to the environment. -/

namespace Sys2Proof

/-- The instantiation parameter `KIND` (R3). -/
inductive Kind where
  | uart
  | spi
  deriving DecidableEq, Repr, Inhabited

/-- The parameters of one instance (00_scope.md section 4). Their legal ranges are `Config.wf`. -/
structure Config where
  /-- `KIND` -/
  kind : Kind
  /-- `FIFO_CAP`, the capacity of each hardware FIFO -/
  fifoCap : Nat
  /-- `N_TX`, the size of TxBuf -/
  nTx : Nat
  /-- `N_RX`, the size of RxBuf -/
  nRx : Nat
  /-- `N_EP`, the number of endpoints (SPI) -/
  nEp : Nat
  deriving DecidableEq, Repr

/-- The legal parameter values of 00_scope.md section 4 (R6). -/
abbrev Config.wf (c : Config) : Prop :=
  (1 ≤ c.fifoCap ∧ c.fifoCap ≤ 65535) ∧ (1 ≤ c.nTx ∧ c.nTx ≤ 65535) ∧
    (1 ≤ c.nRx ∧ c.nRx ≤ 65535) ∧ (1 ≤ c.nEp ∧ c.nEp ≤ 16)

/-- The parameters of the reset state. DESIGN CHOICE (log 3): the spec leaves every parameter open; these are the values
its UART test vectors use. -/
def Config.ofReset : Config :=
  { kind := .uart, fifoCap := 16, nTx := 50, nRx := 50, nEp := 4 }

/-- The two software buffers, each an address space of its own (R25, R41). -/
inductive Buf where
  | tx
  | rx
  deriving DecidableEq, Repr, Inhabited

/-- The two hardware FIFOs (R147). -/
inductive Fifo where
  | tx
  | rx
  deriving DecidableEq, Repr, Inhabited

/-- The events of the environment (R80, R146): none has a command word. -/
inductive Event where
  | irqT
  | irqR
  | irqX
  | tick
  | txLoad
  | txEmit
  | rxByte (b : Byte)
  | xchg (r : Byte)
  deriving DecidableEq, Repr, Inhabited

/-- One atomic step of one agent of a run (R43): the host sends a command word, or an event of the environment. -/
inductive AgentStep where
  | command (w : Word)
  | event (e : Event)
  deriving DecidableEq, Repr, Inhabited

/-- FREE VALUE (U1, R25; log 4): what a buffer byte reads as that nothing has written since reset. -/
opaque Config.unwrittenByte : Buf → Nat → Byte

/-- FREE VALUE (U6, U7, U8, R175; log 1): which agent steps next, with which byte or command word, where the state's
schedule lists nothing. -/
opaque Config.nextAgentStep : Nat → AgentStep

end Sys2Proof
end

