-- ==== Sys2Proof/Syntax.lean ====
section
/-! DEFINITION. The commands: one constructor per row of spec/opcode_table.json (30_encoding.md section 6). -/

namespace Sys2Proof

/-- A command of PUMPFSM-1 with its operands (R58 to R67). -/
inductive Instr where
  /-- START.T n (UART, R110) -/
  | startT (len : BitVec 16)
  /-- START.R n (UART, R111) -/
  | startR (len : BitVec 16)
  /-- START.X n or START.X n, @e (SPI, R112): the endpoint is absent where S = 0 (R63) -/
  | startX (ep : Option Endpoint) (len : BitVec 16)
  /-- STATUS.T (UART, R115) -/
  | statusT
  /-- STATUS.R (UART, R116) -/
  | statusR
  /-- STATUS.X (SPI, R115) -/
  | statusX
  /-- ACK.T (UART, R117) -/
  | ackT
  /-- ACK.R (UART, R117) -/
  | ackR
  /-- ACK.X (SPI, R117) -/
  | ackX
  /-- SELECT @e (SPI, R120) -/
  | select (ep : Endpoint)
  /-- DESELECT (SPI, R121) -/
  | deselect
  /-- SETTMO (UART, R119) with the fields NT and TMO -/
  | settmo (nt : Bool) (tmo : BitVec 16)
  /-- BUFWR.T i, b (R136) -/
  | bufwrT (idx : BitVec 16) (data : Byte)
  /-- BUFWR.R i, b (R136) -/
  | bufwrR (idx : BitVec 16) (data : Byte)
  /-- BUFRD.T i (R137) -/
  | bufrdT (idx : BitVec 16)
  /-- BUFRD.R i (R137) -/
  | bufrdR (idx : BitVec 16)
  deriving DecidableEq, Repr, Inhabited

end Sys2Proof
end

