-- ==== Sys2Proof/WellFormed.lean ====
section
/-! DEFINITION. Which commands an instance has: the checks beyond the word's own form (30_encoding.md R70, R71). -/

namespace Sys2Proof

/-- The `kind` column of opcode_table.json (R70): which instances have the command. -/
def Instr.kindOk (k : Kind) : Instr → Bool
  | .startT _ => k = .uart
  | .startR _ => k = .uart
  | .startX _ _ => k = .spi
  | .statusT => k = .uart
  | .statusR => k = .uart
  | .statusX => k = .spi
  | .ackT => k = .uart
  | .ackR => k = .uart
  | .ackX => k = .spi
  | .select _ => k = .spi
  | .deselect => k = .spi
  | .settmo _ _ => k = .uart
  | .bufwrT _ _ => true
  | .bufwrR _ _ => true
  | .bufrdT _ => true
  | .bufrdR _ => true

/-- R71: an endpoint operand names one of the instance's endpoints. -/
def Instr.endpointOk (c : Config) : Instr → Bool
  | .startT _ => true
  | .startR _ => true
  | .startX none _ => true
  | .startX (some e) _ => e.toNat < c.nEp
  | .statusT => true
  | .statusR => true
  | .statusX => true
  | .ackT => true
  | .ackR => true
  | .ackX => true
  | .select e => e.toNat < c.nEp
  | .deselect => true
  | .settmo _ _ => true
  | .bufwrT _ _ => true
  | .bufwrR _ _ => true
  | .bufrdT _ => true
  | .bufrdR _ => true

/-- A command is well formed for an instance when both checks pass. -/
def Instr.wf (c : Config) (i : Instr) : Bool :=
  i.kindOk c.kind && i.endpointOk c

end Sys2Proof
end

