-- ==== Sys2Proof/Decode.lean ====
section
/-! DEFINITION. The decoder of command words, in the order of 30_encoding.md R72, and after it the encoder (R58 to R66,
R78). Both are written from the encoding tables of 30_encoding.md. -/

namespace Sys2Proof

/-- Why a word is ILLEGAL: the causes I1 to I4 of 60_exceptions.md R167. The host sees no difference between them. -/
inductive IllegalCause where
  /-- I1: OP is 0x0 or 0x9 to 0xF (R68) -/
  | reservedOpcode
  /-- I2: a reserved bit of the format is set (R69) -/
  | reservedBit
  /-- I3: the command or a field's value is not legal for `KIND` (R70) -/
  | wrongKind
  /-- I4: the endpoint is not below `N_EP` (R71) -/
  | endpointRange
  deriving DecidableEq, Repr

/-- OP = w[31:28] (R57). -/
def Word.op (w : Word) : BitVec 4 := w.extractLsb' 28 4

/-- D = w[27], the session or buffer select (R62). -/
def Word.d (w : Word) : Bool := w.getLsbD 27

/-- S = w[26] of START (R63). -/
def Word.s (w : Word) : Bool := w.getLsbD 26

/-- E = w[23:20] of START and SELECT (R63). -/
def Word.e (w : Word) : Endpoint := w.extractLsb' 20 4

/-- LEN of START (R64) and TMO of SETTMO (R65): w[15:0]. -/
def Word.low16 (w : Word) : BitVec 16 := w.extractLsb' 0 16

/-- NT = w[16] of SETTMO (R65). -/
def Word.nt (w : Word) : Bool := w.getLsbD 16

/-- IDX = w[23:8] of BUFWR and BUFRD (R66). -/
def Word.idx (w : Word) : BitVec 16 := w.extractLsb' 8 16

/-- DATA = w[7:0] of BUFWR (R66). -/
def Word.data (w : Word) : Byte := w.extractLsb' 0 8

/-- A START word whose reserved bits are 0 (R58): legality by `KIND`, then the endpoint's range (R70, R71). -/
def decodeStart (c : Config) (w : Word) : Except IllegalCause Instr :=
  match c.kind with
  | .uart =>
    if w.s = true ∨ w.e ≠ 0 then .error .wrongKind
    else if w.d then .ok (.startR w.low16)
    else .ok (.startT w.low16)
  | .spi =>
    if w.d then .error .wrongKind
    else if w.s then
      if w.e.toNat < c.nEp then .ok (.startX (some w.e) w.low16) else .error .endpointRange
    else if w.e ≠ 0 then .error .wrongKind
    else .ok (.startX none w.low16)

/-- STATUS and ACK (R59, R62): on UART D selects between two commands, on SPI D must be 0 (R70). -/
def decodeBySession (c : Config) (w : Word) (t r x : Instr) : Except IllegalCause Instr :=
  match c.kind with
  | .uart => if w.d then .ok r else .ok t
  | .spi => if w.d then .error .wrongKind else .ok x

/-- SELECT (R60): SPI only (R70), then the endpoint's range (R71). -/
def decodeSelect (c : Config) (w : Word) : Except IllegalCause Instr :=
  match c.kind with
  | .uart => .error .wrongKind
  | .spi => if w.e.toNat < c.nEp then .ok (.select w.e) else .error .endpointRange

/-- DESELECT (R61): SPI only (R70). -/
def decodeDeselect (c : Config) : Except IllegalCause Instr :=
  match c.kind with
  | .uart => .error .wrongKind
  | .spi => .ok .deselect

/-- SETTMO (R65): UART only (R70). -/
def decodeSettmo (c : Config) (w : Word) : Except IllegalCause Instr :=
  match c.kind with
  | .uart => .ok (.settmo w.nt w.low16)
  | .spi => .error .wrongKind

/-- Some reserved bit of the word's format is set (R58 to R61, R65, R66, R69); no format for a reserved OP. -/
def Word.reservedBitSet (w : Word) : Bool :=
  match w.op.toNat with
  | 1 => w.extractLsb' 24 2 != 0 || w.extractLsb' 16 4 != 0
  | 2 => w.extractLsb' 0 27 != 0
  | 3 => w.extractLsb' 0 27 != 0
  | 4 => w.extractLsb' 24 4 != 0 || w.extractLsb' 0 20 != 0
  | 5 => w.extractLsb' 0 28 != 0
  | 6 => w.extractLsb' 17 11 != 0
  | 7 => w.extractLsb' 24 3 != 0
  | 8 => w.extractLsb' 24 3 != 0 || w.extractLsb' 0 8 != 0
  | _ => false

/-- The command of a word whose reserved bits are 0, by its opcode (R57, R70, R71). -/
def decodeOp (c : Config) (w : Word) : Except IllegalCause Instr :=
  match w.op.toNat with
  | 1 => decodeStart c w
  | 2 => decodeBySession c w .statusT .statusR .statusX
  | 3 => decodeBySession c w .ackT .ackR .ackX
  | 4 => decodeSelect c w
  | 5 => decodeDeselect c
  | 6 => decodeSettmo c w
  | 7 => if w.d then .ok (.bufwrR w.idx w.data) else .ok (.bufwrT w.idx w.data)
  | 8 => if w.d then .ok (.bufrdR w.idx) else .ok (.bufrdT w.idx)
  | _ => .error .reservedOpcode

/-- The decoder of an instance, total on all words (R73). A reserved OP has no format, so its own cause comes first; then
a reserved bit, then `KIND`, then the endpoint (R72). -/
def decode (c : Config) (w : Word) : Except IllegalCause Instr :=
  if w.reservedBitSet then .error .reservedBit else decodeOp c w

/-! ## The encoder, from the assembler's table of words (R78) -/

/-- A one-bit field placed at a bit of the word. -/
def bitAt (b : Bool) (n : Nat) : Word := if b then 1#32 <<< n else 0#32

/-- The word of a command (R58 to R66, R78). -/
def encode : Instr → Word
  | .startT len => 0x10000000#32 ||| len.setWidth 32
  | .startR len => 0x18000000#32 ||| len.setWidth 32
  | .startX none len => 0x10000000#32 ||| len.setWidth 32
  | .startX (some e) len => 0x14000000#32 ||| (e.setWidth 32 <<< 20) ||| len.setWidth 32
  | .statusT => 0x20000000#32
  | .statusR => 0x28000000#32
  | .statusX => 0x20000000#32
  | .ackT => 0x30000000#32
  | .ackR => 0x38000000#32
  | .ackX => 0x30000000#32
  | .select e => 0x40000000#32 ||| (e.setWidth 32 <<< 20)
  | .deselect => 0x50000000#32
  | .settmo nt tmo => 0x60000000#32 ||| bitAt nt 16 ||| tmo.setWidth 32
  | .bufwrT i b => 0x70000000#32 ||| (i.setWidth 32 <<< 8) ||| b.setWidth 32
  | .bufwrR i b => 0x78000000#32 ||| (i.setWidth 32 <<< 8) ||| b.setWidth 32
  | .bufrdT i => 0x80000000#32 ||| (i.setWidth 32 <<< 8)
  | .bufrdR i => 0x88000000#32 ||| (i.setWidth 32 <<< 8)

/-! ## The word as the opcode table numbers it -/

/-- The instance a word is meant for, starting from an instance `c`: `c` itself if it has the command; else `c` with the
other `KIND`; else that instance with as many endpoints as the E field can name. Rows of opcode_table.json of the two
kinds share words, so a word alone does not say its `KIND` (30_encoding.md section 6; log 7). -/
def Config.forWord (c : Config) (w : Word) : Config :=
  let other : Config := { c with kind := match c.kind with | .uart => .spi | .spi => .uart }
  match decode c w with
  | .ok _ => c
  | .error _ =>
    match decode other w with
    | .ok _ => other
    | .error _ =>
      match decode { c with kind := .spi, nEp := 16 } w with
      | .ok _ => { c with kind := .spi, nEp := 16 }
      | .error _ => c

/-- The host's view of the decoder: the command in a table word of `nbits` bits (R56: always 32), read on the instance it
is meant for; none where no instance has it. -/
def decodeTableWord (nbits w : Nat) : Option Instr :=
  if nbits ≤ 32 ∧ w < 2 ^ nbits then
    match decode (Config.ofReset.forWord (BitVec.ofNat 32 w)) (BitVec.ofNat 32 w) with
    | .ok i => some i
    | .error _ => none
  else none

end Sys2Proof
end

