-- ==== Sys2Proof/Machine/State.lean ====
section
/-! DEFINITION. The machine's state as plain data: the block's registers and buffers (spec/10_state.md sections 2 to 4),
the collaborators it drives (section 8), the command port's responses, the instance's parameters and the schedule of the
agents' steps; the reasons a step can stop; the state after reset (R34, R159, R186). -/

namespace Sys2Proof.Machine

/-- The status of a session (R16); its two-bit code is `Status.code` (R75). -/
inductive Status where
  | idle
  | inProgress
  | finished
  | timedOut
  deriving DecidableEq, Repr, Inhabited

/-- The sessions of R15: S_T and S_R of a UART instance, S_X of an SPI instance. -/
inductive SessionId where
  | t
  | r
  | x
  deriving DecidableEq, Repr, Inhabited

/-- The fields every session has (10_state.md section 2, R16 to R20). Lengths are exact integers (R8). -/
structure Session where
  st : Status
  len : Nat
  cur : Nat
  thr : Nat
  ie : Bool
  deriving DecidableEq, Repr

/-- The fields only S_R has: the timeout budget (R21, `none` is NONE) and the liveness snapshots (R22). -/
structure RxWatch where
  tmo : Option Int
  pcur : Nat
  pfill : Nat
  pvalid : Bool
  deriving DecidableEq, Repr

/-- The timeout reload register (R23). -/
structure TmoReload where
  nt : Bool
  val : BitVec 16
  deriving DecidableEq, Repr

/-- One entry of the wire log (R157): a byte on UART (R149), the selected endpoint and a byte on SPI (R152). -/
inductive WireEntry where
  | uart (b : Byte)
  | spi (cs : Option Endpoint) (b : Byte)
  deriving DecidableEq, Repr

/-- A software buffer: the bytes written since reset, by index, indices strictly rising. An index that is not listed has
no byte of its own and reads as the free value `Config.unwrittenByte` (R25, U1; log 4). -/
abbrev Memory := List Host.Cell

/-- The model faults of R172: a primitive's precondition failed. Each is unreachable under the launch premise (R187). -/
inductive Fault where
  /-- `FifoFull`: FifoPush found the FIFO full (R9). Raised by the pumps' pushes. Safe: the spec stops there too. -/
  | fifoFull
  /-- `FifoEmpty`: FifoPop found the FIFO empty (R9). Raised by the pops of pumps and events. Safe: the spec stops there too. -/
  | fifoEmpty
  /-- `BufIndex`: MemRead or MemWrite outside the buffer (R9). Raised by the pumps' accesses. Safe: the spec stops there too. -/
  | bufIndex
  deriving DecidableEq, Repr

/-- The reasons a step has no meaning in this model. -/
inductive Refusal where
  /-- Raised by an arm of `exec` whose command has no meaning yet; no arm is left so. Safe: nothing is claimed of it. -/
  | notModelled (mnemonic : String)
  deriving DecidableEq, Repr

/-- The state of one block instance and its collaborators. -/
@[ext]
structure State where
  /-- the instance's parameters (00_scope.md section 4); no step changes them -/
  cfg : Config
  /-- S_T, of a UART instance (R15) -/
  sT : Session
  /-- S_R, of a UART instance (R15) -/
  sR : Session
  /-- S_X, of an SPI instance (R15) -/
  sX : Session
  /-- the fields only S_R has (R21, R22) -/
  watch : RxWatch
  /-- the timeout reload register (R23) -/
  tmoReload : TmoReload
  /-- the endpoint selector, `none` is NONE (R24) -/
  cs : Option Endpoint
  /-- TxBuf (R25) -/
  txBuf : Memory
  /-- RxBuf (R25) -/
  rxBuf : Memory
  /-- TXQ, head first (R147) -/
  txq : List Byte
  /-- RXQ, head first (R147) -/
  rxq : List Byte
  /-- the transmit shift register, `none` is NONE (R148) -/
  txsh : Option Byte
  /-- the receive overflow flag (R28) -/
  rxovf : Bool
  /-- the wire log, oldest first (R157) -/
  wire : List WireEntry
  /-- the response words put on the command port, oldest first (R56, R74; log 5) -/
  responses : List Word
  /-- the MODEL's own: the agents' steps to come, first first (R43; log 1) -/
  schedule : List AgentStep
  /-- the MODEL's own: how many agent steps have been drawn from `Config.nextAgentStep` (log 1) -/
  drawn : Nat
  deriving DecidableEq, Repr

/-- A session after reset (R34). -/
def Session.reset : Session :=
  { st := .idle, len := 0, cur := 0, thr := 0, ie := false }

/-- An instance with the parameters `c` after reset (R34, R186), its collaborators in their launch state (R159). -/
def State.resetOf (c : Config) : State :=
  { cfg := c
    sT := Session.reset
    sR := Session.reset
    sX := Session.reset
    watch := { tmo := none, pcur := 0, pfill := 0, pvalid := false }
    tmoReload := { nt := true, val := 0 }
    cs := none
    txBuf := []
    rxBuf := []
    txq := []
    rxq := []
    txsh := none
    rxovf := false
    wire := []
    responses := []
    schedule := []
    drawn := 0 }

/-- The machine right after reset, with the parameters log 3 names. -/
def State.reset : State := State.resetOf Config.ofReset

end Sys2Proof.Machine
end

