-- ==== Sys2Proof/Machine/Ops.lean ====
section
/-! DEFINITION. The named operations over the state: sessions, buffers, FIFOs (the primitives of 00_scope.md R9), the
response port (R74), and taking the next agent step of the run (R43). The block takes no exception (60_exceptions.md R166,
R176): an interrupt is the event of Machine/Events.lean that runs the pump, and a command's failure is its response. -/

namespace Sys2Proof.Machine

/-! ## Buffers (R25, R41): one list of cells each, indices strictly rising -/

/-- The byte stored at an index since reset; `none` where nothing has been written. -/
def Memory.lookup : Memory → Nat → Option Byte
  | [], _ => none
  | (a, b) :: m, i => if i = a then some b else Memory.lookup m i

/-- Store a byte, keeping the indices strictly rising. -/
def Memory.insert : Memory → Nat → Byte → Memory
  | [], i, v => [(i, v)]
  | (a, b) :: m, i, v =>
    if i < a then (i, v) :: (a, b) :: m
    else if i = a then (i, v) :: m
    else (a, b) :: Memory.insert m i v

/-- The canonical form of a buffer of `size` bytes: indices strictly rising and inside the buffer. -/
abbrev Memory.wf (size : Nat) (m : Memory) : Prop :=
  m.Pairwise (fun p q => p.1 < q.1) ∧ ∀ c ∈ m, c.1 < size

/-- The cells of a buffer. -/
def State.buf (s : State) : Buf → Memory
  | .tx => s.txBuf
  | .rx => s.rxBuf

/-- Replace the cells of a buffer. -/
def State.setBuf (s : State) (B : Buf) (m : Memory) : State :=
  match B with
  | .tx => { s with txBuf := m }
  | .rx => { s with rxBuf := m }

/-- size(TxBuf) = N_TX, size(RxBuf) = N_RX (R41). -/
def State.bufSize (s : State) : Buf → Nat
  | .tx => s.cfg.nTx
  | .rx => s.cfg.nRx

/-- What a buffer holds at an index: the byte last written there, else the draw of reset (R25, R44, U1). -/
def State.peek (s : State) (B : Buf) (i : Nat) : Byte :=
  (Memory.lookup (s.buf B) i).getD (Config.unwrittenByte B i)

/-- Store a byte in a buffer. -/
def State.poke (s : State) (B : Buf) (i : Nat) (v : Byte) : State :=
  s.setBuf B (Memory.insert (s.buf B) i v)

/-- `MemRead(B, i, 1)` (R9). -/
def State.memRead (s : State) (B : Buf) (i : Nat) : Except Fault Byte :=
  if i < s.bufSize B then .ok (s.peek B i) else .error .bufIndex

/-- `MemWrite(B, i, 1, v)` (R9). -/
def State.memWrite (s : State) (B : Buf) (i : Nat) (v : Byte) : Except Fault State :=
  if i < s.bufSize B then .ok (s.poke B i v) else .error .bufIndex

/-! ## The hardware FIFOs (R147) -/

/-- The entries of a FIFO, head first. -/
def State.fifo (s : State) : Fifo → List Byte
  | .tx => s.txq
  | .rx => s.rxq

/-- Replace the entries of a FIFO. -/
def State.setFifo (s : State) (q : Fifo) (l : List Byte) : State :=
  match q with
  | .tx => { s with txq := l }
  | .rx => { s with rxq := l }

/-- `fill(q)` (R9). -/
def State.fill (s : State) (q : Fifo) : Nat := (s.fifo q).length

/-- `FifoPush(q, b)` (R9). -/
def State.fifoPush (s : State) (q : Fifo) (b : Byte) : Except Fault State :=
  if s.fill q < s.cfg.fifoCap then .ok (s.setFifo q (s.fifo q ++ [b])) else .error .fifoFull

/-- `FifoPop(q)` (R9): the head and the state without it. -/
def State.fifoPop (s : State) (q : Fifo) : Except Fault (Byte × State) :=
  match s.fifo q with
  | [] => .error .fifoEmpty
  | b :: l => .ok (b, s.setFifo q l)

/-! ## Sessions (R15) -/

/-- A session's fields. -/
def State.session (s : State) : SessionId → Session
  | .t => s.sT
  | .r => s.sR
  | .x => s.sX

/-- Replace a session's fields. -/
def State.setSession (s : State) (id : SessionId) (f : Session) : State :=
  match id with
  | .t => { s with sT := f }
  | .r => { s with sR := f }
  | .x => { s with sX := f }

/-! ## Block-level registers and the overflow flag -/

/-- Write the endpoint selector (R24). -/
def State.setSelect (s : State) (cs : Option Endpoint) : State := { s with cs := cs }

/-- Write the timeout reload register (R23). -/
def State.setReload (s : State) (r : TmoReload) : State := { s with tmoReload := r }

/-- Write S_R's budget and snapshots (R21, R22). -/
def State.setWatch (s : State) (w : RxWatch) : State := { s with watch := w }

/-- Write the receive overflow flag (R28). -/
def State.setOverflow (s : State) (b : Bool) : State := { s with rxovf := b }

/-- Write the transmit shift register (R148, R149). -/
def State.setShift (s : State) (b : Option Byte) : State := { s with txsh := b }

/-- A byte leaves on the wire (R157). -/
def State.emit (s : State) (w : WireEntry) : State := { s with wire := s.wire ++ [w] }

/-! ## The command port (R74) -/

/-- The result codes (R74). -/
inductive ResultCode where
  | ok
  | rejected
  | illegal
  deriving DecidableEq, Repr

/-- RC in bits 31:28 (R74). -/
def ResultCode.bits : ResultCode → BitVec 4
  | .ok => 0
  | .rejected => 1
  | .illegal => 2

/-- The response word: RC in bits 31:28 above the 28-bit payload (R74). -/
def responseWord (rc : ResultCode) (payload : BitVec 28) : Word :=
  rc.bits ++ payload

/-- `respond(rc, payload)`: put the response word on the command port (R9, R74). -/
def State.respond (s : State) (rc : ResultCode) (payload : BitVec 28) : State :=
  { s with responses := s.responses ++ [responseWord rc payload] }

/-- A command that was refused: `respond(REJECTED, 0)`, no state changed (R74). -/
def State.rejected (s : State) : State := s.respond .rejected 0

/-- A word that is no command of the instance: `respond(ILLEGAL, 0)`, no state changed (R74). -/
def State.illegal (s : State) : State := s.respond .illegal 0

/-! ## Outcomes -/

/-- A command's body has run: answer OK with payload 0; a failed primitive ends the run (R172). -/
def answerOk : Except Fault State → Host.Outcome State Fault Refusal
  | .ok s => .next (s.respond .ok 0)
  | .error f => .fault f

/-- An event's body has run; a failed primitive ends the run (R172). -/
def eventOutcome : Except Fault State → Host.Outcome State Fault Refusal
  | .ok s => .next s
  | .error f => .fault f

/-- A command that only one `KIND` has is ILLEGAL on the other (R70; log 6). -/
def onKind (k : Kind) (s : State) (o : Host.Outcome State Fault Refusal) : Host.Outcome State Fault Refusal :=
  if s.cfg.kind = k then o else .next s.illegal

/-- An endpoint operand at or above N_EP is ILLEGAL (R71; log 6). -/
def onEndpoint (e : Endpoint) (s : State) (o : Host.Outcome State Fault Refusal) : Host.Outcome State Fault Refusal :=
  if e.toNat < s.cfg.nEp then o else .next s.illegal

/-! ## The run: which agent steps next (R43; log 1) -/

/-- The next agent step and the state from which it is taken: the head of the schedule, or a free draw where the
schedule lists nothing (R43, R175, U7). -/
def State.takeAgentStep (s : State) : AgentStep × State :=
  match s.schedule with
  | a :: rest => (a, { s with schedule := rest })
  | [] => (Config.nextAgentStep s.drawn, { s with drawn := s.drawn + 1 })

end Sys2Proof.Machine
end

