-- ==== Sys2Proof/Machine/Ack.lean ====
section
/-! DEFINITION. ACK.T, ACK.R, ACK.X (spec/42_api.md R117). -/

namespace Sys2Proof.Machine

/-- The acknowledgement of one session (R117): only from Finished or TimedOut. -/
def State.acknowledge (s : State) (id : SessionId) : State :=
  if (s.session id).st = .finished ∨ (s.session id).st = .timedOut then
    (s.setSession id { s.session id with st := .idle, cur := 0 }).respond .ok 0
  else s.rejected

/-- ACK.T (R117). -/
def execAckT (s : State) : Host.Outcome State Fault Refusal :=
  onKind .uart s (.next (s.acknowledge .t))

/-- ACK.R (R117). -/
def execAckR (s : State) : Host.Outcome State Fault Refusal :=
  onKind .uart s (.next (s.acknowledge .r))

/-- ACK.X (R117). -/
def execAckX (s : State) : Host.Outcome State Fault Refusal :=
  onKind .spi s (.next (s.acknowledge .x))

end Sys2Proof.Machine
end

