-- ==== Sys2Proof/Machine/Operands.lean ====
section
/-! DEFINITION. What a command's operands select: a session's capacity (00_scope.md R5), a buffer's owner (R26), the
endpoint of START.X (R113), the loaded budget (R97). -/

namespace Sys2Proof.Machine

/-- `cap(S)` (R5). -/
def State.capacity (s : State) : SessionId → Nat
  | .t => s.cfg.nTx
  | .r => s.cfg.nRx
  | .x => min s.cfg.nTx s.cfg.nRx

/-- The session that owns a buffer (R26). -/
def State.owner (s : State) (B : Buf) : SessionId :=
  match s.cfg.kind, B with
  | .uart, .tx => .t
  | .uart, .rx => .r
  | .spi, _ => .x

/-- The endpoint operand of START.X: absent (S = 0) leaves `cs` as it is (R63, R112, R113). -/
def State.selectOptional (s : State) : Option Endpoint → State
  | some e => s.setSelect (some e)
  | none => s

/-- The budget START.R loads: NONE, or the reload value as a signed integer (R97). -/
def TmoReload.budget (r : TmoReload) : Option Int :=
  if r.nt then none else some (Int.ofNat r.val.toNat)

end Sys2Proof.Machine
end

