-- ==== Sys2Proof/Machine/BufferPort.lean ====
section
/-! DEFINITION. BUFWR.T, BUFWR.R, BUFRD.T, BUFRD.R (spec/43_buffer_port.md R136 to R139). -/

namespace Sys2Proof.Machine

/-- The ownership check, then the index check (R138, R139): the buffer is the host's and the index is inside it. -/
def State.hostMayAccess (s : State) (B : Buf) (i : Nat) : Bool :=
  (s.session (s.owner B)).st ≠ .inProgress && i < s.bufSize B

/-- BUFWR to one buffer (R136). -/
def writeBuffer (B : Buf) (i : Nat) (v : Byte) (s : State) : Host.Outcome State Fault Refusal :=
  if s.hostMayAccess B i then answerOk (s.memWrite B i v) else .next s.rejected

/-- BUFRD of one buffer: the byte in PAYLOAD[7:0] (R77, R137). -/
def readBuffer (B : Buf) (i : Nat) (s : State) : Host.Outcome State Fault Refusal :=
  if s.hostMayAccess B i then
    match s.memRead B i with
    | .ok b => .next (s.respond .ok (b.setWidth 28))
    | .error f => .fault f
  else .next s.rejected

/-- BUFWR.T (R136). -/
def execBufwrT (idx : BitVec 16) (data : Byte) (s : State) : Host.Outcome State Fault Refusal :=
  writeBuffer .tx idx.toNat data s

/-- BUFWR.R (R136). -/
def execBufwrR (idx : BitVec 16) (data : Byte) (s : State) : Host.Outcome State Fault Refusal :=
  writeBuffer .rx idx.toNat data s

/-- BUFRD.T (R137). -/
def execBufrdT (idx : BitVec 16) (s : State) : Host.Outcome State Fault Refusal :=
  readBuffer .tx idx.toNat s

/-- BUFRD.R (R137). -/
def execBufrdR (idx : BitVec 16) (s : State) : Host.Outcome State Fault Refusal :=
  readBuffer .rx idx.toNat s

end Sys2Proof.Machine
end

