-- ==== Sys2Proof/Machine/Endpoint.lean ====
section
/-! DEFINITION. SELECT and DESELECT (spec/42_api.md R120, R121). -/

namespace Sys2Proof.Machine

/-- Drive the endpoint selector, unless the active session owns it (R120, R121). -/
def State.driveSelect (s : State) (cs : Option Endpoint) : State :=
  if s.sX.st = .inProgress then s.rejected else (s.setSelect cs).respond .ok 0

/-- SELECT (R120); an endpoint out of range is ILLEGAL before anything else (R71, R72). -/
def execSelect (e : Endpoint) (s : State) : Host.Outcome State Fault Refusal :=
  onKind .spi s (onEndpoint e s (.next (s.driveSelect (some e))))

/-- DESELECT (R121). -/
def execDeselect (s : State) : Host.Outcome State Fault Refusal :=
  onKind .spi s (.next (s.driveSelect none))

end Sys2Proof.Machine
end

