-- ==== Sys2Proof/Machine/Pump.lean ====
section
/-! DEFINITION. The chunked pump (spec/40_pump.md R81 to R86). -/

namespace Sys2Proof.Machine

/-- `for j in 0 .. n-1: FifoPush(TXQ, MemRead(TxBuf, i + j, 1))` (R83, R85). -/
def State.pushBytes (s : State) (i : Nat) : Nat → Except Fault State
  | 0 => .ok s
  | n + 1 =>
    match s.memRead .tx i with
    | .error f => .error f
    | .ok b =>
      match s.fifoPush .tx b with
      | .error f => .error f
      | .ok s' => s'.pushBytes (i + 1) n

/-- `for j in 0 .. n-1: MemWrite(RxBuf, i + j, 1, FifoPop(RXQ))` (R84, R85). -/
def State.popBytes (s : State) (i : Nat) : Nat → Except Fault State
  | 0 => .ok s
  | n + 1 =>
    match s.fifoPop .rx with
    | .error f => .error f
    | .ok (b, s') =>
      match s'.memWrite .rx i b with
      | .error f => .error f
      | .ok s'' => s''.popBytes (i + 1) n

/-- `S.cur <- S.cur + n`, on a session's fields. -/
def Session.moved (f : Session) (n : Nat) : Session := { f with cur := f.cur + n }

/-- `S.cur <- S.cur + n`. -/
def State.advance (s : State) (id : SessionId) (n : Nat) : State :=
  s.setSession id ((s.session id).moved n)

/-- PumpTX (R83). -/
def State.pumpTx (s : State) : Except Fault State :=
  let n := min (s.sT.len - s.sT.cur) (s.cfg.fifoCap - s.fill .tx)
  match s.pushBytes s.sT.cur n with
  | .error f => .error f
  | .ok s' => .ok (s'.advance .t n)

/-- The receive half of a pump: drain RXQ into RxBuf (R84, and the first half of R85). -/
def State.drain (s : State) (id : SessionId) : Except Fault State :=
  let n := min ((s.session id).len - (s.session id).cur) (s.fill .rx)
  match s.popBytes (s.session id).cur n with
  | .error f => .error f
  | .ok s' => .ok (s'.advance id n)

/-- PumpRX (R84). -/
def State.pumpRx (s : State) : Except Fault State := s.drain .r

/-- The transmit half of PumpSPI: push the next chunk, unless the session is complete (R85). -/
def State.pushChunk (s : State) : Except Fault State :=
  if s.sX.cur < s.sX.len then s.pushBytes s.sX.cur (min (s.sX.len - s.sX.cur) s.cfg.fifoCap) else .ok s

/-- PumpSPI: drain first, then fill (R85). -/
def State.pumpSpi (s : State) : Except Fault State :=
  match s.drain .x with
  | .error f => .error f
  | .ok s' => s'.pushChunk

/-- The epilogue's effect on one session's fields (R82). -/
def Session.epilogue (f : Session) (fifoCap : Nat) : Session :=
  let st := if f.cur = f.len then .finished else f.st
  { f with thr := min (f.len - f.cur) fifoCap, st := st, ie := st = .inProgress }

/-- `Epilogue(S)` (R82). -/
def State.epilogue (s : State) (id : SessionId) : State :=
  s.setSession id ((s.session id).epilogue s.cfg.fifoCap)

/-- The bytes a pump moves, before its epilogue (R81). -/
def State.pumpBody (s : State) : SessionId → Except Fault State
  | .t => s.pumpTx
  | .r => s.pumpRx
  | .x => s.pumpSpi

/-- `Pump(S)` (R81). -/
def State.pump (s : State) (id : SessionId) : Except Fault State :=
  match s.pumpBody id with
  | .error f => .error f
  | .ok s' => .ok (s'.epilogue id)

end Sys2Proof.Machine
end

