-- ==== Sys2Proof/Machine/Start.lean ====
section
/-! DEFINITION. START.T, START.R, START.X (spec/42_api.md R109 to R113). -/

namespace Sys2Proof.Machine

/-- START's checks, common to its forms (R109): busy or unacknowledged, then the length; else the body and OK. The test
and the body are one atomic step (R47). -/
def startSession (id : SessionId) (n : Nat) (body : State → Except Fault State) (s : State) :
    Host.Outcome State Fault Refusal :=
  if (s.session id).st ≠ .idle then .next s.rejected
  else if n = 0 ∨ s.capacity id < n then .next s.rejected
  else answerOk (body s)

/-- `S.len <- n ; S.cur <- 0 ; S.st <- InProgress`, on a session's fields (R110 to R112). -/
def Session.opened (f : Session) (n : Nat) : Session := { f with len := n, cur := 0, st := .inProgress }

/-- `S.len <- n ; S.cur <- 0 ; S.st <- InProgress` (R110 to R112). -/
def State.openSession (s : State) (id : SessionId) (n : Nat) : State :=
  s.setSession id ((s.session id).opened n)

/-- The body of START.T (R110). -/
def startBodyT (n : Nat) (s : State) : Except Fault State :=
  (s.openSession .t n).pump .t

/-- S_R's budget and snapshots as START.R leaves them (R97, R103). -/
def State.loadWatch (s : State) : State :=
  s.setWatch { tmo := s.tmoReload.budget, pcur := 0, pfill := 0, pvalid := false }

/-- The body of START.R (R111). -/
def startBodyR (n : Nat) (s : State) : Except Fault State :=
  (((s.setOverflow false).openSession .r n).loadWatch).pump .r

/-- The body of START.X (R112, R113). -/
def startBodyX (ep : Option Endpoint) (n : Nat) (s : State) : Except Fault State :=
  (((s.selectOptional ep).setOverflow false).openSession .x n).pump .x

/-- START.T (R109, R110). -/
def execStartT (len : BitVec 16) (s : State) : Host.Outcome State Fault Refusal :=
  onKind .uart s (startSession .t len.toNat (startBodyT len.toNat) s)

/-- START.R (R109, R111). -/
def execStartR (len : BitVec 16) (s : State) : Host.Outcome State Fault Refusal :=
  onKind .uart s (startSession .r len.toNat (startBodyR len.toNat) s)

/-- START.X (R109, R112); an endpoint out of range is ILLEGAL before anything else (R71, R72). -/
def execStartX (ep : Option Endpoint) (len : BitVec 16) (s : State) : Host.Outcome State Fault Refusal :=
  onKind .spi s
    (match ep with
     | some e => onEndpoint e s (startSession .x len.toNat (startBodyX (some e) len.toNat) s)
     | none => startSession .x len.toNat (startBodyX none len.toNat) s)

end Sys2Proof.Machine
end

