-- ==== Sys2Proof/Machine/Flags.lean ====
section
/-! DEFINITION. The combinational flags and outputs: the status code (R75), the fully-flushed flag TXF (R27), the
interrupt requests (R91, R92), the chip selects (R156), and which events are enabled (R93, R98, R148 to R152). -/

namespace Sys2Proof.Machine

/-- The status code of R75. -/
def Status.code : Status → BitVec 2
  | .idle => 0
  | .inProgress => 1
  | .finished => 2
  | .timedOut => 3

/-- TXF of S_T and of S_X (R27); a receive session has none and reports 0 (R76). -/
def State.txf (s : State) : SessionId → Bool
  | .t => s.sT.st ≠ .inProgress && s.fill .tx = 0 && s.txsh.isNone
  | .x => s.sX.st ≠ .inProgress && s.fill .tx = 0
  | .r => false

/-- The payload of STATUS: TXF in bit 2 above the status code (R76). -/
def State.statusPayload (s : State) (id : SessionId) : BitVec 28 :=
  (BitVec.ofBool (s.txf id) ++ (s.session id).st.code).setWidth 28

/-- `REQ(S)`: the level the peripheral forms from `ie`, `thr` and the FIFO (R91, R92). The room test of R91,
FIFO_CAP - fill(TXQ) ≥ thr, is written without subtraction. -/
def State.req (s : State) : SessionId → Bool
  | .t => s.sT.ie && s.sT.thr + s.fill .tx ≤ s.cfg.fifoCap
  | .r => s.sR.ie && s.sR.thr ≤ s.fill .rx
  | .x => s.sX.ie && s.sX.thr ≤ s.fill .rx

/-- Chip-select output of endpoint `e` (R156). -/
def State.chipSelect (s : State) (e : Endpoint) : Bool := s.cs = some e

/-- Which events are enabled: an instance has only the events of its `KIND` (R146), TICK is always enabled (R98). -/
def State.enabled (s : State) : Event → Bool
  | .irqT => s.cfg.kind = .uart && s.req .t
  | .irqR => s.cfg.kind = .uart && s.req .r
  | .irqX => s.cfg.kind = .spi && s.req .x
  | .tick => true
  | .txLoad => s.cfg.kind = .uart && s.txsh.isNone && 0 < s.fill .tx
  | .txEmit => s.cfg.kind = .uart && s.txsh.isSome
  | .rxByte _ => s.cfg.kind = .uart
  | .xchg _ => s.cfg.kind = .spi && 0 < s.fill .tx

end Sys2Proof.Machine
end

