-- ==== Sys2Proof/Machine/Status.lean ====
section
/-! DEFINITION. STATUS.T, STATUS.R, STATUS.X (spec/42_api.md R115, R116) with the liveness check STATUS.R runs
(spec/41_timeout.md R101). -/

namespace Sys2Proof.Machine

/-- Record both snapshots (R101, every branch that continues). -/
def State.recordSnapshot (s : State) : State :=
  s.setWatch { s.watch with pcur := s.sR.cur, pfill := s.fill .rx, pvalid := true }

/-- End S_R with a terminal status: its interrupt is disabled in the same step (R20, R101, R98). -/
def State.endReceive (s : State) (st : Status) : State :=
  s.setSession .r { s.sR with st := st, ie := false }

/-- The liveness check (R101): L0, L6, L1, L2, L3, L4, L5 in that order. It requires `S_R.st = InProgress`. -/
def State.livenessCheck (s : State) : State :=
  if s.watch.pvalid = false then s.recordSnapshot
  else if s.sR.cur ≠ s.watch.pcur then s.recordSnapshot
  else if s.fill .rx = 0 ∧ s.sR.cur = s.sR.len then s.endReceive .finished
  else if s.fill .rx = 0 ∧ s.sR.cur = 0 then s.recordSnapshot
  else if s.fill .rx = 0 then s.endReceive .timedOut
  else if s.fill .rx = s.watch.pfill then s.endReceive .timedOut
  else s.recordSnapshot

/-- `respond(OK, zext_28({TXF(S), code(S.st)}))` (R76, R115). -/
def State.reportStatus (s : State) (id : SessionId) : State :=
  s.respond .ok (s.statusPayload id)

/-- STATUS.T (R115). -/
def execStatusT (s : State) : Host.Outcome State Fault Refusal :=
  onKind .uart s (.next (s.reportStatus .t))

/-- STATUS.R (R116): the liveness check first, where S_R is InProgress. -/
def execStatusR (s : State) : Host.Outcome State Fault Refusal :=
  onKind .uart s
    (.next ((if s.sR.st = .inProgress then s.livenessCheck else s).reportStatus .r))

/-- STATUS.X (R115). -/
def execStatusX (s : State) : Host.Outcome State Fault Refusal :=
  onKind .spi s (.next (s.reportStatus .x))

end Sys2Proof.Machine
end

