-- ==== Sys2Proof/Machine/Timeout.lean ====
section
/-! DEFINITION. SETTMO (spec/42_api.md R119) and the TICK event (spec/41_timeout.md R98). -/

namespace Sys2Proof.Machine

/-- SETTMO (R119). -/
def execSettmo (nt : Bool) (tmo : BitVec 16) (s : State) : Host.Outcome State Fault Refusal :=
  onKind .uart s (.next ((s.setReload { nt := nt, val := tmo }).respond .ok 0))

/-- Set the budget left. -/
def State.setBudget (s : State) (t : Int) : State :=
  s.setWatch { s.watch with tmo := some t }

/-- TICK (R98): only a UART receive session in progress with a budget counts down; at 0 or below it times out. -/
def State.tick (s : State) : State :=
  if s.cfg.kind = .uart ∧ s.sR.st = .inProgress then
    match s.watch.tmo with
    | none => s
    | some t => if t - 1 ≤ 0 then (s.setBudget (t - 1)).endReceive .timedOut else s.setBudget (t - 1)
  else s

end Sys2Proof.Machine
end

