-- ==== Sys2Proof/Machine/Dispatch.lean ====
section
/-! DEFINITION. The meaning of each command, one arm per constructor of Instr. -/

namespace Sys2Proof.Machine

def exec (i : Instr) (s : State) : Host.Outcome State Fault Refusal :=
  match i with
  | .startT len => Sys2Proof.Machine.execStartT len s
  | .startR len => Sys2Proof.Machine.execStartR len s
  | .startX ep len => Sys2Proof.Machine.execStartX ep len s
  | .statusT => Sys2Proof.Machine.execStatusT s
  | .statusR => Sys2Proof.Machine.execStatusR s
  | .statusX => Sys2Proof.Machine.execStatusX s
  | .ackT => Sys2Proof.Machine.execAckT s
  | .ackR => Sys2Proof.Machine.execAckR s
  | .ackX => Sys2Proof.Machine.execAckX s
  | .select ep => Sys2Proof.Machine.execSelect ep s
  | .deselect => Sys2Proof.Machine.execDeselect s
  | .settmo nt tmo => Sys2Proof.Machine.execSettmo nt tmo s
  | .bufwrT idx data => Sys2Proof.Machine.execBufwrT idx data s
  | .bufwrR idx data => Sys2Proof.Machine.execBufwrR idx data s
  | .bufrdT idx => Sys2Proof.Machine.execBufrdT idx s
  | .bufrdR idx => Sys2Proof.Machine.execBufrdR idx s

end Sys2Proof.Machine
end

