-- ==== Sys2Proof/Machine/Command.lean ====
section
/-! DEFINITION. One command word at the command port: decode, then its command or the ILLEGAL response (30_encoding.md
R56, R68 to R72); and the instance a placed word is meant for. -/

namespace Sys2Proof.Machine

/-- One command word: a word that is no command of this instance answers ILLEGAL and changes no state (R68 to R71). -/
def runCommand (w : Word) (s : State) : Host.Outcome State Fault Refusal :=
  match decode s.cfg w with
  | .ok i => exec i s
  | .error _ => .next s.illegal

/-- Place a command word as the next agent step, on the instance the word is meant for (log 7). -/
def State.placeCommand (s : State) (w : Word) : State :=
  { s with cfg := s.cfg.forWord w, schedule := .command w :: s.schedule }

end Sys2Proof.Machine
end

