-- ==== Sys2Proof/Machine/Events.lean ====
section
/-! DEFINITION. The environment's events (spec/40_pump.md R93, 41_timeout.md R98, 44_collaborators.md R148 to R152). -/

namespace Sys2Proof.Machine

/-- A byte arrives at RXQ: it is queued, or lost with `rxovf` set where RXQ is full (R150, R151). -/
def State.arrive (s : State) (b : Byte) : Except Fault State :=
  if s.fill .rx < s.cfg.fifoCap then s.fifoPush .rx b else .ok (s.setOverflow true)

/-- TX_LOAD (R148). -/
def State.txLoad (s : State) : Except Fault State :=
  match s.fifoPop .tx with
  | .error f => .error f
  | .ok (b, s') => .ok (s'.setShift (some b))

/-- TX_EMIT (R149); nothing leaves an empty shift register. -/
def State.txEmit (s : State) : State :=
  match s.txsh with
  | some b => (s.emit (.uart b)).setShift none
  | none => s

/-- XCHG r (R152). -/
def State.xchg (s : State) (r : Byte) : Except Fault State :=
  match s.fifoPop .tx with
  | .error f => .error f
  | .ok (b, s') => (s'.emit (.spi s'.cs b)).arrive r

/-- The effect of an enabled event. An interrupt runs its session's pump and nothing else: nothing is saved, no mode
changes, nothing is returned from (R93, R176, R178). -/
def State.fire (s : State) : Event → Except Fault State
  | .irqT => s.pump .t
  | .irqR => s.pump .r
  | .irqX => s.pump .x
  | .tick => .ok s.tick
  | .txLoad => s.txLoad
  | .txEmit => .ok s.txEmit
  | .rxByte b => s.arrive b
  | .xchg r => s.xchg r

/-- One event chosen by the run. An agent steps only where its event is enabled (R146); an event that is not enabled
takes no step, and the state stays as it is (log 2). -/
def execEvent (e : Event) (s : State) : Host.Outcome State Fault Refusal :=
  if s.enabled e then eventOutcome (s.fire e) else .next s

end Sys2Proof.Machine
end

