-- ==== Sys2Proof/Machine/Step.lean ====
section
/-! DEFINITION. One atomic step of a run (spec/20_memory.md R43): the next agent step is taken, a command word is run or
an event fires. -/

namespace Sys2Proof.Machine

/-- One atomic step (R10, R43). -/
def step (s : State) : Host.Outcome State Fault Refusal :=
  match s.takeAgentStep with
  | (.command w, s') => runCommand w s'
  | (.event e, s') => execEvent e s'

/-- `s` with the command word of the opcode table's bits `w` as the very next agent step (log 7). Every bit above
`nbits` is 0. -/
def State.withFetchWord (s : State) (nbits w : Nat) : State :=
  s.placeCommand (BitVec.ofNat 32 (w % 2 ^ nbits))

end Sys2Proof.Machine
end

