-- ==== Sys2Proof/Machine/Assembler.lean ====
section
/-! DEFINITION. The assembler syntax and the pseudo-commands (spec/30_encoding.md R78, R79), and the event lines of test
programs (R80): from the characters of a program's lines to agent steps. -/

namespace Sys2Proof.Machine

/-- One token of a line: a mnemonic, a number, an endpoint `@e`, or the word NONE (R78). -/
inductive Operand where
  | num (n : Nat)
  | endpoint (n : Nat)
  | none
  deriving DecidableEq, Repr

/-- The value of one digit character in base 10 or 16. -/
def digitValue (base : Nat) (c : Char) : Option Nat :=
  let v :=
    if '0' ≤ c ∧ c ≤ '9' then some (c.toNat - '0'.toNat)
    else if 'a' ≤ c ∧ c ≤ 'f' then some (c.toNat - 'a'.toNat + 10)
    else if 'A' ≤ c ∧ c ≤ 'F' then some (c.toNat - 'A'.toNat + 10)
    else none
  v.filter (· < base)

/-- The number spelt by digits, most significant first. -/
def digitsValue (base acc : Nat) : List Char → Option Nat
  | [] => some acc
  | c :: cs => (digitValue base c).bind fun v => digitsValue base (acc * base + v) cs

/-- A number, decimal or `0x` hex (R78). -/
def parseNumber : List Char → Option Nat
  | [] => none
  | ['0', 'x'] => none
  | '0' :: 'x' :: cs => digitsValue 16 0 cs
  | cs => digitsValue 10 0 cs

/-- One operand (R78). -/
def parseOperand : List Char → Option Operand
  | '@' :: cs => (parseNumber cs).map .endpoint
  | cs => if cs = "NONE".toList then some .none else (parseNumber cs).map .num

/-- Drop the blanks at both ends. -/
def trimBlanks (cs : List Char) : List Char :=
  let front := cs.dropWhile (· = ' ')
  (front.reverse.dropWhile (· = ' ')).reverse

/-- Split at every separator. -/
def splitAtEach (sep : Char) : List Char → List (List Char)
  | [] => [[]]
  | c :: cs =>
    if c = sep then [] :: splitAtEach sep cs
    else
      match splitAtEach sep cs with
      | p :: ps => (c :: p) :: ps
      | [] => [[c]]

/-- All operands of a line, or none where one does not parse. -/
def parseOperands : List (List Char) → Option (List Operand)
  | [] => some []
  | p :: ps => (parseOperand (trimBlanks p)).bind fun o => (parseOperands ps).map (o :: ·)

/-- A number as a field of `w` bits; an operand out of its field's range is an assembly error (R78). -/
def asField (w n : Nat) : Option (BitVec w) :=
  if n < 2 ^ w then some (BitVec.ofNat w n) else none

/-- `FILL` of one buffer: one buffer write per byte, at rising indices (R79). -/
def fillWords (wr : BitVec 16 → Byte → Instr) (i : Nat) : List Operand → Option (List Instr)
  | [] => some []
  | .num b :: bs =>
    (asField 16 i).bind fun i' =>
      (asField 8 b).bind fun b' => (fillWords wr (i + 1) bs).map (wr i' b' :: ·)
  | _ :: _ => none

/-- One command or pseudo-command with its operands (R78, R79); none is an assembly error. -/
def assembleLine (mnemonic : String) (ops : List Operand) : Option (List Instr) :=
  let start (mk : BitVec 16 → Instr) (n : Nat) : Option (List Instr) :=
    (asField 16 n).map fun n' => [mk n']
  let startAt (n e : Nat) : Option (List Instr) :=
    (asField 16 n).bind fun n' => (asField 4 e).map fun e' => [.startX (some e') n']
  let fill (wr : BitVec 16 → Byte → Instr) (i : Nat) (bs : List Operand) : Option (List Instr) :=
    if bs = [] then none else fillWords wr i bs
  match mnemonic, ops with
  | "START.T", [.num n] => start .startT n
  | "SEND", [.num n] => start .startT n
  | "START.R", [.num n] => start .startR n
  | "RECV", [.num n] => start .startR n
  | "START.X", [.num n] => start (.startX none) n
  | "START.X", [.num n, .endpoint e] => startAt n e
  | "XFER", [.num n, .endpoint e] => startAt n e
  | "STATUS.T", [] => some [.statusT]
  | "STATUS.R", [] => some [.statusR]
  | "STATUS.X", [] => some [.statusX]
  | "ACK.T", [] => some [.ackT]
  | "ACK.R", [] => some [.ackR]
  | "ACK.X", [] => some [.ackX]
  | "SELECT", [.endpoint e] => (asField 4 e).map fun e' => [.select e']
  | "DESELECT", [] => some [.deselect]
  | "SETTMO", [.num n] => start (.settmo false) n
  | "SETTMO", [.none] => some [.settmo true 0]
  | "NOTMO", [] => some [.settmo true 0]
  | "BUFWR.T", [.num i, .num b] => fillWords .bufwrT i [.num b]
  | "BUFWR.R", [.num i, .num b] => fillWords .bufwrR i [.num b]
  | "FILL.T", .num i :: bs => fill .bufwrT i bs
  | "FILL.R", .num i :: bs => fill .bufwrR i bs
  | "BUFRD.T", [.num i] => (asField 16 i).map fun i' => [.bufrdT i']
  | "BUFRD.R", [.num i] => (asField 16 i).map fun i' => [.bufrdR i']
  | _, _ => none

/-- One event line of a test program (R80). -/
def eventLine (name : String) (ops : List Operand) : Option Event :=
  match name, ops with
  | "@IRQ_T", [] => some .irqT
  | "@IRQ_R", [] => some .irqR
  | "@IRQ_X", [] => some .irqX
  | "@TICK", [] => some .tick
  | "@TX_LOAD", [] => some .txLoad
  | "@TX_EMIT", [] => some .txEmit
  | "@RX_BYTE", [.num b] => (asField 8 b).map .rxByte
  | "@XCHG", [.num r] => (asField 8 r).map .xchg
  | _, _ => none

/-- A line without its comment, as its first word and its operands (R78). -/
def splitLine (line : List Char) : Option (String × List Operand) :=
  let code := trimBlanks (line.takeWhile (· ≠ ';'))
  let word := code.takeWhile (· ≠ ' ')
  let rest := trimBlanks (code.dropWhile (· ≠ ' '))
  (if rest = [] then some [] else parseOperands (splitAtEach ',' rest)).map fun ops => (String.ofList word, ops)

/-- The agent steps one line of characters stands for (R78 to R80); none is an assembly error. An empty line stands for
none. -/
def assembleChars (line : List Char) : Option (List AgentStep) :=
  (splitLine line).bind fun (word, ops) =>
    if word = "" then some []
    else
      match eventLine word ops with
      | some e => some [.event e]
      | none => (assembleLine word ops).map fun is => is.map fun i => .command (encode i)

/-- The agent steps one line stands for. -/
def assemble (line : String) : Option (List AgentStep) := assembleChars line.toList

/-- Several lines in order; none where one of them is an assembly error. -/
def assembleAll : List (List Char) → Option (List AgentStep)
  | [] => some []
  | l :: ls => (assembleChars l).bind fun a => (assembleAll ls).map (a ++ ·)

/-- Nothing is left of the line but blanks and a comment (R78). -/
def onlyComment (cs : List Char) : Bool :=
  match cs.dropWhile (· = ' ') with
  | [] => true
  | c :: _ => c = ';'

/-- A group of lines in parentheses. DESIGN CHOICE (log 16), R80 being silent on comments in such a line: a semicolon
inside the parentheses separates two lines of the group, so a group holds no comment; after the closing parenthesis a
semicolon starts a comment as R78 says, and anything else there makes the line no group. -/
def groupLines (cs : List Char) : Option (List (List Char)) :=
  match cs with
  | '(' :: rest =>
    match rest.dropWhile (· ≠ ')') with
    | _ :: after => if onlyComment after then some (splitAtEach ';' (rest.takeWhile (· ≠ ')'))) else none
    | [] => none
  | _ => none

/-- `k × (...)` repeats a group of lines `k` times (R80); none where the line is not of that form. DESIGN CHOICE (log 16):
the group stands on one line and groups do not nest; `groupLines` says where a semicolon starts a comment. -/
def repeatedGroup (line : List Char) : Option (Nat × List (List Char)) :=
  match line.dropWhile (· ≠ '×') with
  | _ :: rest =>
    (parseNumber (trimBlanks (line.takeWhile (· ≠ '×')))).bind fun k =>
      (groupLines (trimBlanks rest)).map fun ls => (k, ls)
  | [] => none

/-- The agent steps of a program, line by line, with repeated groups (R78 to R80). -/
def assembleProgram : List String → Option (List AgentStep)
  | [] => some []
  | l :: ls =>
    (match repeatedGroup l.toList with
     | some (k, group) => (assembleAll group).map fun a => (List.replicate k a).flatten
     | none => assemble l).bind fun a => (assembleProgram ls).map (a ++ ·)

end Sys2Proof.Machine
end

