-- ==== Sys2Proof/Safety.lean ====
section
/-! DEFINITION. What a good state and a good run are, in the spec's terms: the invariants of 10_state.md R30, R31,
40_pump.md R88, 41_timeout.md R100 and the ranges of the registers (00_scope.md section 4); runs, fairness, prompt dispatch
and the loopback environment (44_collaborators.md R153, R155, R158). -/

namespace Sys2Proof.Machine

/-! ## Invariants -/

/-- What every session keeps, of capacity `cap` (R17 to R20, R30, R31, R82). -/
structure SessionInv (f : Session) (cap fifoCap : Nat) : Prop where
  /-- an Idle session's cursor is 0 (R30 clause 1) -/
  idle : f.st = .idle → f.cur = 0
  /-- the length fits the buffers (R17) -/
  len_le : f.len ≤ cap
  /-- a session that has started has a length (R17) -/
  len_pos : f.st ≠ .idle → 1 ≤ f.len
  /-- the cursor stays inside the length (R30 clause 1) -/
  cur_le : f.cur ≤ f.len
  /-- Finished is exactly completion (R30 clause 2; with `cur_le`, clause 3 too) -/
  finished : f.st = .finished ↔ f.st ≠ .idle ∧ f.cur = f.len
  /-- the interrupt is enabled exactly while InProgress (R20, R31) -/
  ie : f.ie = true ↔ f.st = .inProgress
  /-- the threshold while InProgress (R19, R82) -/
  thr : f.st = .inProgress → f.thr = min (f.len - f.cur) fifoCap
  /-- the threshold's range (R19) -/
  thr_le : f.thr ≤ fifoCap

/-- What S_R's budget and snapshots keep (R22, R100, R101). -/
structure WatchInv (s : State) : Prop where
  /-- the budget's range (R100) -/
  budget : ∀ t, s.watch.tmo = some t → -1 ≤ t ∧ t ≤ 65535
  /-- a budget below 0 has expired (R98, R100) -/
  running : ∀ t, s.sR.st = .inProgress → s.watch.tmo = some t → 0 ≤ t
  /-- the cursor snapshot's range -/
  pcur_le : s.watch.pcur ≤ s.sR.len
  /-- the level snapshot's range -/
  pfill_le : s.watch.pfill ≤ s.cfg.fifoCap
  /-- since the last check the cursor has not fallen, and at the same cursor the level has not fallen (R101 L5) -/
  snapshot : s.sR.st = .inProgress → s.watch.pvalid = true →
    s.watch.pcur ≤ s.sR.cur ∧ (s.watch.pcur = s.sR.cur → s.watch.pfill ≤ s.fill .rx)

/-- The `KIND` whose wire log has the entry (R157). -/
def WireEntry.kind : WireEntry → Kind
  | .uart _ => .uart
  | .spi _ _ => .spi

/-- What a UART instance keeps: it has no S_X and no endpoint (R15, R24). -/
structure UartInv (s : State) : Prop where
  no_x : s.sX.st = .idle
  no_cs : s.cs = none

/-- What an SPI instance keeps: it has no S_T, S_R or shift register, one chunk at most is in flight, and RXQ never
overflows (R15, R88, R160). -/
structure SpiInv (s : State) : Prop where
  no_t : s.sT.st = .idle
  no_r : s.sR.st = .idle
  no_shift : s.txsh = none
  in_flight : s.sX.st = .inProgress → s.fill .tx + s.fill .rx = s.sX.thr
  drained : s.sX.st ≠ .inProgress → s.txq = [] ∧ s.rxq = []
  no_overflow : s.rxovf = false

/-- The invariant of the machine: it holds after reset and every step keeps it. -/
structure Inv (s : State) : Prop where
  cfg : s.cfg.wf
  t : SessionInv s.sT s.cfg.nTx s.cfg.fifoCap
  r : SessionInv s.sR s.cfg.nRx s.cfg.fifoCap
  x : SessionInv s.sX (min s.cfg.nTx s.cfg.nRx) s.cfg.fifoCap
  /-- only S_R can time out (R169) -/
  t_no_timeout : s.sT.st ≠ .timedOut
  x_no_timeout : s.sX.st ≠ .timedOut
  watch : WatchInv s
  /-- the FIFOs' capacity (R147) -/
  txq_le : s.fill .tx ≤ s.cfg.fifoCap
  rxq_le : s.fill .rx ≤ s.cfg.fifoCap
  /-- the buffers' canonical form (R41) -/
  txBuf : Memory.wf s.cfg.nTx s.txBuf
  rxBuf : Memory.wf s.cfg.nRx s.rxBuf
  /-- `cs` names one of the instance's endpoints (R24) -/
  cs : ∀ e, s.cs = some e → e.toNat < s.cfg.nEp
  wire : ∀ w ∈ s.wire, w.kind = s.cfg.kind
  /-- RC values 3 to 15 are never produced (R74, U5) -/
  responses : ∀ w ∈ s.responses, w.op.toNat ≤ 2
  uart : s.cfg.kind = .uart → UartInv s
  spi : s.cfg.kind = .spi → SpiInv s

/-- The invariant on the cursor and the status of a session (R30). -/
def CursorInvariant (f : Session) : Prop :=
  (f.st ≠ .idle → f.cur ≤ f.len) ∧ (f.st = .idle → f.cur = 0) ∧
    (f.st = .finished ↔ f.st ≠ .idle ∧ f.cur = f.len) ∧
    (f.st = .inProgress ∨ f.st = .timedOut → f.cur < f.len)

/-- The invariant on the interrupt enable of a session (R31). -/
def EnableInvariant (f : Session) : Prop :=
  (f.ie = true → f.st = .inProgress ∧ 1 ≤ f.thr) ∧ (f.st = .inProgress → f.ie = true)

/-- The chunks a session still has to move: the remainder over FIFO_CAP, rounded up (R94). -/
def Session.chunksLeft (f : Session) (fifoCap : Nat) : Nat := (f.len - f.cur + fifoCap - 1) / fifoCap

/-- The round trip so far, of an SPI session under the loopback double: what has been received is what was sent, and what
is in flight is the chunk last pushed (R87, R153). -/
def EchoSoFar (s : State) : Prop :=
  (∀ i, i < s.sX.cur → s.peek .rx i = s.peek .tx i) ∧
    s.rxq ++ s.txq = (List.range s.sX.thr).map fun j => s.peek .tx (s.sX.cur + j)

/-! ## Bytes on their way (R95, R157) -/

/-- The byte of a wire entry. -/
def WireEntry.byte : WireEntry → Byte
  | .uart b => b
  | .spi _ b => b

/-- The bytes that have left or will leave, in order: the wire, the shift register, TXQ. -/
def State.outStream (s : State) : List Byte :=
  s.wire.map WireEntry.byte ++ s.txsh.toList ++ s.txq

/-- The bytes of a buffer at `n` indices from `i`. -/
def State.bytesAt (s : State) (B : Buf) (i n : Nat) : List Byte :=
  (List.range n).map fun j => s.peek B (i + j)

/-! ## Runs -/

/-- An infinite run of atomic steps (R43). -/
def IsRun (run : Nat → State) : Prop :=
  ∀ n, step (run n) = .next (run (n + 1))

/-- Weak fairness: an event that stays enabled is eventually taken (R158). -/
def WeaklyFair (run : Nat → State) : Prop :=
  ∀ e n, (∀ m, n ≤ m → (run m).enabled e = true) → ∃ m, n ≤ m ∧ (run m).takeAgentStep.1 = .event e

/-- Prompt dispatch, a restriction a claim may take: no command step while some interrupt is enabled (R155). -/
def PromptStep (s : State) : Prop :=
  ∀ w, s.takeAgentStep.1 = .command w →
    s.enabled .irqT = false ∧ s.enabled .irqR = false ∧ s.enabled .irqX = false

/-- The loopback double of an SPI instance, a restriction of the environment: each exchange returns the byte sent (R153). -/
def LoopbackStep (s : State) : Prop :=
  ∀ r, s.takeAgentStep.1 = .event (.xchg r) → s.txq.head? = some r

/-- The loopback double of a UART instance: each byte emitted is delivered back (R153). DESIGN CHOICE (log 22), R153
naming only the echo that follows each TX_EMIT: the echo is the very next step, and bytes that echo nothing are left free,
so other RX_BYTE steps may stand in the run. -/
def UartLoopbackRun (run : Nat → State) : Prop :=
  ∀ n b, (run n).takeAgentStep.1 = .event .txEmit → (run n).txsh = some b →
    (run (n + 1)).takeAgentStep.1 = .event (.rxByte b)

end Sys2Proof.Machine
end

