-- ==== Sys2Proof/Certificates/Slice0/Obligations.lean ====
section
/-! DEFINITION. The statements for the provers, from the numbered rules of spec/, with the tables they quote. -/

namespace Sys2Proof.Machine

/-- The state with one more response word on the command port, and nothing else changed. -/
abbrev answered (s : State) (w : Word) : State := { s with responses := s.responses ++ [w] }

/-- The numeric status code of R75. -/
def statusNumber : Status → Nat
  | .idle => 0
  | .inProgress => 1
  | .finished => 2
  | .timedOut => 3

/-- The START command of a session. -/
def isStartOf : SessionId → Instr → Prop
  | .t, i => ∃ n, i = .startT n
  | .r, i => ∃ n, i = .startR n
  | .x, i => ∃ ep n, i = .startX ep n

/-- The ACK command of a session. -/
def ackOf : SessionId → Instr
  | .t => .ackT
  | .r => .ackR
  | .x => .ackX

/-- The interrupt event of a session. -/
def irqOf : SessionId → Event
  | .t => .irqT
  | .r => .irqR
  | .x => .irqX

/-- The next agent step of the run is a word of the command `i`. -/
def NextCommandIs (s : State) (i : Instr) : Prop :=
  ∃ w, s.takeAgentStep.1 = .command w ∧ decode s.cfg w = .ok i

/-- The session that owns TxBuf is InProgress: S_T on UART, S_X on SPI (R26). -/
def BusyTx (s : State) : Prop :=
  (s.cfg.kind = .uart ∧ s.sT.st = .inProgress) ∨ (s.cfg.kind = .spi ∧ s.sX.st = .inProgress)

/-- The session that owns RxBuf is InProgress: S_R on UART, S_X on SPI (R26). -/
def BusyRx (s : State) : Prop :=
  (s.cfg.kind = .uart ∧ s.sR.st = .inProgress) ∨ (s.cfg.kind = .spi ∧ s.sX.st = .inProgress)

/-- One row of spec/opcode_table.json: mnemonic, the kinds that have it, mask and match. -/
structure TableRow where
  mnemonic : String
  uart : Bool
  spi : Bool
  mask : Word
  value : Word

/-- The rows of spec/opcode_table.json (30_encoding.md section 6). -/
def opcodeTable : List TableRow :=
  [ ⟨"START.T", true, false, 0xFFFF0000#32, 0x10000000#32⟩,
    ⟨"START.R", true, false, 0xFFFF0000#32, 0x18000000#32⟩,
    ⟨"START.X", false, true, 0xFB0F0000#32, 0x10000000#32⟩,
    ⟨"STATUS.T", true, false, 0xFFFFFFFF#32, 0x20000000#32⟩,
    ⟨"STATUS.R", true, false, 0xFFFFFFFF#32, 0x28000000#32⟩,
    ⟨"STATUS.X", false, true, 0xFFFFFFFF#32, 0x20000000#32⟩,
    ⟨"ACK.T", true, false, 0xFFFFFFFF#32, 0x30000000#32⟩,
    ⟨"ACK.R", true, false, 0xFFFFFFFF#32, 0x38000000#32⟩,
    ⟨"ACK.X", false, true, 0xFFFFFFFF#32, 0x30000000#32⟩,
    ⟨"SELECT", false, true, 0xFF0FFFFF#32, 0x40000000#32⟩,
    ⟨"DESELECT", false, true, 0xFFFFFFFF#32, 0x50000000#32⟩,
    ⟨"SETTMO", true, false, 0xFFFE0000#32, 0x60000000#32⟩ ] ++
  [ ⟨"BUFWR.T", true, true, 0xFF000000#32, 0x70000000#32⟩,
    ⟨"BUFWR.R", true, true, 0xFF000000#32, 0x78000000#32⟩,
    ⟨"BUFRD.T", true, true, 0xFF0000FF#32, 0x80000000#32⟩,
    ⟨"BUFRD.R", true, true, 0xFF0000FF#32, 0x88000000#32⟩ ]

/-- The row of the table a command belongs to, by mnemonic. -/
def mnemonicOf : Instr → String
  | .startT _ => "START.T"
  | .startR _ => "START.R"
  | .startX _ _ => "START.X"
  | .statusT => "STATUS.T"
  | .statusR => "STATUS.R"
  | .statusX => "STATUS.X"
  | .ackT => "ACK.T"
  | .ackR => "ACK.R"
  | .ackX => "ACK.X"
  | .select _ => "SELECT"
  | .deselect => "DESELECT"
  | .settmo _ _ => "SETTMO"
  | .bufwrT _ _ => "BUFWR.T"
  | .bufwrR _ _ => "BUFWR.R"
  | .bufrdT _ => "BUFRD.T"
  | .bufrdR _ => "BUFRD.R"

/-- The word is one of the row's on the instance: the instance has the row, the fixed bits match, and the endpoint fields
of START.X and SELECT pass the checks beyond the mask (30_encoding.md section 6, R70, R71). -/
def TableRow.admits (row : TableRow) (c : Config) (w : Word) : Prop :=
  (match c.kind with | .uart => row.uart = true | .spi => row.spi = true) ∧
    w &&& row.mask = row.value ∧
    (row.mnemonic = "START.X" →
      if w.getLsbD 26 then (w.extractLsb' 20 4).toNat < c.nEp else w.extractLsb' 20 4 = 0) ∧
    (row.mnemonic = "SELECT" → (w.extractLsb' 20 4).toNat < c.nEp)

/-- OP and the fixed bits of its format, as mask and match (R58 to R61, R65, R66). -/
def formatTable : List (BitVec 4 × Word × Word) :=
  [ (1, 0xF30F0000#32, 0x10000000#32), (2, 0xF7FFFFFF#32, 0x20000000#32), (3, 0xF7FFFFFF#32, 0x30000000#32),
    (4, 0xFF0FFFFF#32, 0x40000000#32), (5, 0xFFFFFFFF#32, 0x50000000#32), (6, 0xFFFE0000#32, 0x60000000#32),
    (7, 0xF7000000#32, 0x70000000#32), (8, 0xF70000FF#32, 0x80000000#32) ]

/-- OP is 0x0 or 0x9 to 0xF (R68). -/
def ReservedOpcode (w : Word) : Prop :=
  w.extractLsb' 28 4 = 0 ∨ 9 ≤ (w.extractLsb' 28 4).toNat

/-- OP is valid and a reserved bit of its format is set (R69). -/
def ReservedBit (w : Word) : Prop :=
  ∃ row ∈ formatTable, w.extractLsb' 28 4 = row.1 ∧ w &&& row.2.1 ≠ row.2.2

/-- The word is in R70's list for the instance's kind: on UART, SELECT, DESELECT, and START with S = 1 or E ≠ 0; on SPI,
START, STATUS or ACK with D = 1, SETTMO, and START with S = 0 and E ≠ 0. -/
def KindIllegal (k : Kind) (w : Word) : Prop :=
  match k with
  | .uart =>
    w.extractLsb' 28 4 = 4 ∨ w.extractLsb' 28 4 = 5 ∨
      (w.extractLsb' 28 4 = 1 ∧ (w.getLsbD 26 = true ∨ w.extractLsb' 20 4 ≠ 0))
  | .spi =>
    ((w.extractLsb' 28 4 = 1 ∨ w.extractLsb' 28 4 = 2 ∨ w.extractLsb' 28 4 = 3) ∧ w.getLsbD 27 = true) ∨
      w.extractLsb' 28 4 = 6 ∨
      (w.extractLsb' 28 4 = 1 ∧ w.getLsbD 26 = false ∧ w.extractLsb' 20 4 ≠ 0)

/-- On SPI, START with S = 1 or SELECT with E ≥ N_EP (R71). -/
def EndpointIllegal (c : Config) (w : Word) : Prop :=
  c.kind = .spi ∧ (w.extractLsb' 28 4 = 4 ∨ (w.extractLsb' 28 4 = 1 ∧ w.getLsbD 26 = true)) ∧
    c.nEp ≤ (w.extractLsb' 20 4).toNat

end Sys2Proof.Machine

open Sys2Proof Sys2Proof.Machine

/-! ## Reset -/

/-- R34: every block register after reset, for every choice of the parameters (a buffer byte is unspecified: the next
statement); R30 and R31 hold. -/
def Obligations.ResetGivesEveryRegisterItsValue : Prop :=
  ∀ c : Config,
    (∀ id, ((State.resetOf c).session id).st = .idle ∧ ((State.resetOf c).session id).len = 0 ∧
      ((State.resetOf c).session id).cur = 0 ∧ ((State.resetOf c).session id).thr = 0 ∧
      ((State.resetOf c).session id).ie = false) ∧
    (State.resetOf c).watch.tmo = none ∧ (State.resetOf c).watch.pcur = 0 ∧ (State.resetOf c).watch.pfill = 0 ∧
    (State.resetOf c).watch.pvalid = false ∧
    (State.resetOf c).tmoReload.nt = true ∧ (State.resetOf c).tmoReload.val = 0 ∧
    (State.resetOf c).cs = none ∧
    (∀ id, CursorInvariant ((State.resetOf c).session id) ∧ EnableInvariant ((State.resetOf c).session id))

/-- The model's choice (log 4), for the draw of U1: a buffer byte that nothing has written since reset is the free value of
its buffer and index. -/
def Obligations.UnwrittenBytesAreFreeValues : Prop :=
  ∀ (c : Config) (B : Buf) (i : Nat), (State.resetOf c).peek B i = Config.unwrittenByte B i

/-- From R159, the model's reset state has the launch state the spec assumes (log 8): the collaborators at the first step
after reset. -/
def Obligations.CollaboratorsStartInTheirLaunchState : Prop :=
  ∀ c : Config,
    (State.resetOf c).txq = [] ∧ (State.resetOf c).rxq = [] ∧ (State.resetOf c).txsh = none ∧
      (State.resetOf c).rxovf = false ∧ (State.resetOf c).wire = []

/-- The machine's invariant holds after reset, for every legal choice of the parameters. -/
def Obligations.ResetMeetsTheInvariant : Prop :=
  ∀ c : Config, c.wf → Inv (State.resetOf c)

/-! ## Decoding -/

/-- Words written out from 30_encoding.md section 6 decode to the commands they stand for: a sanity statement. -/
def Obligations.SampleWordsDecode : Prop :=
  decode ⟨.uart, 16, 50, 50, 4⟩ 0b00010000000000000000000000101000#32 = .ok (.startT 40) ∧
    decode ⟨.spi, 16, 50, 50, 4⟩ 0b00010100001000000000000000000011#32 = .ok (.startX (some 2) 3) ∧
    decode ⟨.uart, 16, 50, 50, 4⟩ 0b00111000000000000000000000000000#32 = .ok .ackR ∧
    decode ⟨.uart, 16, 50, 50, 4⟩ 0b01100000000000010000000000000000#32 = .ok (.settmo true 0) ∧
    decode ⟨.spi, 16, 50, 50, 4⟩ 0b10001000000000000000001000000000#32 = .ok (.bufrdR 2)

/-- Every command an instance has is read back from its word, at every value of its operands. -/
def Obligations.DecodeOfEncodeIsTheCommand : Prop :=
  ∀ (c : Config) (i : Instr), i.wf c = true → decode c (encode i) = .ok i

/-- No two words of an instance stand for one command, and a decoded command is one the instance has. -/
def Obligations.EncodeOfDecodeIsTheWord : Prop :=
  ∀ (c : Config) (w : Word) (i : Instr), decode c w = .ok i → encode i = w ∧ i.wf c = true

/-- R73: every word is one of the rows of opcode_table.json of the instance, or ILLEGAL. -/
def Obligations.EveryWordIsATableRowOrIllegal : Prop :=
  ∀ (c : Config) (w : Word),
    (∀ i, decode c w = .ok i → ∃ row ∈ opcodeTable, row.mnemonic = mnemonicOf i ∧ row.admits c w) ∧
      (∀ cause, decode c w = .error cause → ∀ row ∈ opcodeTable, ¬ row.admits c w)

/-- R72's order of the checks, over the words the rules R68 to R71 name. -/
def Obligations.IllegalCausesAreCheckedInOrder : Prop :=
  ∀ (c : Config) (w : Word),
    (ReservedOpcode w → decode c w = .error .reservedOpcode) ∧
    (¬ ReservedOpcode w → ReservedBit w → decode c w = .error .reservedBit) ∧
    (¬ ReservedOpcode w → ¬ ReservedBit w → KindIllegal c.kind w → decode c w = .error .wrongKind) ∧
    (¬ ReservedOpcode w → ¬ ReservedBit w → ¬ KindIllegal c.kind w → EndpointIllegal c w →
      decode c w = .error .endpointRange) ∧
    (¬ ReservedOpcode w → ¬ ReservedBit w → ¬ KindIllegal c.kind w → ¬ EndpointIllegal c w →
      ∃ i, decode c w = .ok i)

/-- R68 to R71: a word the rules call ILLEGAL, in whatever state it arrives, answers 0x20000000 and changes no state. -/
def Obligations.IllegalWordsAnswerAndChangeNothing : Prop :=
  ∀ (s s' : State) (w : Word), s.takeAgentStep = (.command w, s') →
    (ReservedOpcode w ∨ ReservedBit w ∨ KindIllegal s.cfg.kind w ∨ EndpointIllegal s.cfg w) →
    step s = .next (answered s' 0x20000000#32)

/-! ## The step -/

/-- A command word that decodes is run as its command, from the state the agent step was taken from. -/
def Obligations.StepRunsTheDecodedCommand : Prop :=
  ∀ (s s' : State) (w : Word) (i : Instr), s.takeAgentStep = (.command w, s') → decode s.cfg w = .ok i →
    step s = exec i s'

/-- An event that the run chooses next is fired, from the state the agent step was taken from. -/
def Obligations.StepFiresTheChosenEvent : Prop :=
  ∀ (s s' : State) (e : Event), s.takeAgentStep = (.event e, s') → step s = execEvent e s'

/-- The model's choice (log 1): the next agent step is the schedule's first, and where the schedule lists none it is the
next free draw; nothing else of the state changes by taking it. -/
def Obligations.AgentStepsComeFromScheduleOrDraw : Prop :=
  ∀ s : State,
    (∀ a rest, s.schedule = a :: rest → s.takeAgentStep = (a, { s with schedule := rest })) ∧
      (s.schedule = [] → s.takeAgentStep = (Config.nextAgentStep s.drawn, { s with drawn := s.drawn + 1 }))

/-- The model's choice (log 2): an event that is chosen while it is not enabled takes no step. -/
def Obligations.DisabledEventTakesNoStep : Prop :=
  ∀ (s : State) (e : Event), s.enabled e = false → execEvent e s = .next s

/-- R91 and R92: the interrupt requests, as levels over the enable, the threshold and the FIFOs' levels. -/
def Obligations.InterruptRequestsAreLevels : Prop :=
  ∀ s : State,
    (s.req .t = true ↔ s.sT.ie = true ∧ (s.sT.thr : Int) ≤ (s.cfg.fifoCap : Int) - (s.txq.length : Int)) ∧
      (s.req .r = true ↔ s.sR.ie = true ∧ s.sR.thr ≤ s.rxq.length) ∧
      (s.req .x = true ↔ s.sX.ie = true ∧ s.sX.thr ≤ s.rxq.length)

/-- The model's choice (log 6): a command value that the instance does not have answers ILLEGAL and changes no state. -/
def Obligations.CommandOfAnotherInstanceIsIllegal : Prop :=
  ∀ (i : Instr) (s : State), i.wf s.cfg = false → exec i s = .next (answered s 0x20000000#32)

/-- R74: a command that ends returns one response word. REJECTED and ILLEGAL carry payload 0 and change no state; OK carries
payload 0 but for STATUS and BUFRD; no other result code is produced. -/
def Obligations.EveryCommandReturnsOneResponse : Prop :=
  ∀ (i : Instr) (s t : State), exec i s = .next t →
    t = answered s 0x10000000#32 ∨ t = answered s 0x20000000#32 ∨
      ∃ p : BitVec 28, t.responses = s.responses ++ [(0#4 ++ p : BitVec 32)] ∧
        (p = 0 ∨ i = .statusT ∨ i = .statusR ∨ i = .statusX ∨ (∃ k, i = .bufrdT k) ∨ ∃ k, i = .bufrdR k)

/-! ## START -/

/-- R109, the rejected half: a busy or unacknowledged session, a length of 0 or over the capacity. -/
def Obligations.StartIsRejectedWithoutEffect : Prop :=
  ∀ (s : State) (n : BitVec 16),
    (s.cfg.kind = .uart → s.sT.st ≠ .idle ∨ n.toNat = 0 ∨ s.cfg.nTx < n.toNat →
      exec (.startT n) s = .next (answered s 0x10000000#32)) ∧
    (s.cfg.kind = .uart → s.sR.st ≠ .idle ∨ n.toNat = 0 ∨ s.cfg.nRx < n.toNat →
      exec (.startR n) s = .next (answered s 0x10000000#32)) ∧
    (∀ ep : Option Endpoint, s.cfg.kind = .spi → (∀ e, ep = some e → e.toNat < s.cfg.nEp) →
      s.sX.st ≠ .idle ∨ n.toNat = 0 ∨ min s.cfg.nTx s.cfg.nRx < n.toNat →
      exec (.startX ep n) s = .next (answered s 0x10000000#32))

/-- R110 with the pump it runs, in every state that keeps TXQ's capacity (R147): START.T answers OK; the first
chunk of TxBuf is appended to TXQ; nothing else changes. -/
def Obligations.StartTransmitPushesTheFirstChunk : Prop :=
  ∀ (s : State) (len : BitVec 16) (n k : Nat), n = len.toNat → k = min n (s.cfg.fifoCap - s.txq.length) →
    s.cfg.kind = .uart → s.sT.st = .idle → 1 ≤ n → n ≤ s.cfg.nTx → s.txq.length ≤ s.cfg.fifoCap →
    decode s.cfg (0x10000000#32 ||| len.setWidth 32) = .ok (.startT len) ∧
    exec (.startT len) s = .next
      { s with
        sT := { st := if k = n then .finished else .inProgress, len := n, cur := k,
                thr := min (n - k) s.cfg.fifoCap, ie := decide (k ≠ n) }
        txq := s.txq ++ (List.range k).map fun j => s.peek .tx j
        responses := s.responses ++ [0x00000000#32] }

/-- R111 with the pump it runs, R97 and R103: START.R answers OK; the overflow flag is cleared, the budget loaded, the
snapshots cleared; bytes already in RXQ become the first bytes of RxBuf; nothing else changes. -/
def Obligations.StartReceiveTakesWaitingBytes : Prop :=
  ∀ (s : State) (len : BitVec 16) (n m : Nat), n = len.toNat → m = min n s.rxq.length →
    s.cfg.kind = .uart → s.sR.st = .idle → 1 ≤ n → n ≤ s.cfg.nRx →
    decode s.cfg (0x18000000#32 ||| len.setWidth 32) = .ok (.startR len) ∧
    ∃ t : State, exec (.startR len) s = .next t ∧
      t = { s with
            rxovf := false
            sR := { st := if m = n then .finished else .inProgress, len := n, cur := m,
                    thr := min (n - m) s.cfg.fifoCap, ie := decide (m ≠ n) }
            watch := { tmo := if s.tmoReload.nt then none else some (s.tmoReload.val.toNat : Int),
                       pcur := 0, pfill := 0, pvalid := false }
            rxq := s.rxq.drop m
            rxBuf := t.rxBuf
            responses := s.responses ++ [0x00000000#32] } ∧
      (∀ i, i < m → some (t.peek .rx i) = s.rxq[i]?) ∧ (∀ i, m ≤ i → t.peek .rx i = s.peek .rx i)

/-- R112, R113 with the pump it runs: where TXQ has room for the chunk, START.X answers OK; the endpoint is asserted where
one is given; bytes in RXQ are drained, then the chunk is pushed; nothing else changes. Under the launch premise both FIFOs
are empty and m is 0. -/
def Obligations.StartSpiPrimesTheFirstChunk : Prop :=
  ∀ (s : State) (ep : Option Endpoint) (len : BitVec 16) (n m k : Nat), n = len.toNat → m = min n s.rxq.length →
    k = min (n - m) s.cfg.fifoCap →
    s.cfg.kind = .spi → (∀ e, ep = some e → e.toNat < s.cfg.nEp) → s.sX.st = .idle → 1 ≤ n →
    n ≤ min s.cfg.nTx s.cfg.nRx → k = 0 ∨ s.txq.length + k ≤ s.cfg.fifoCap →
    decode s.cfg (match ep with
      | some e => 0x14000000#32 ||| (e.setWidth 32 <<< 20) ||| len.setWidth 32
      | none => 0x10000000#32 ||| len.setWidth 32) = .ok (.startX ep len) ∧
    ∃ t : State, exec (.startX ep len) s = .next t ∧
      t = { s with
            cs := match ep with
              | some e => some e
              | none => s.cs
            rxovf := false
            sX := { st := if m = n then .finished else .inProgress, len := n, cur := m, thr := k,
                    ie := decide (m ≠ n) }
            rxq := s.rxq.drop m
            rxBuf := t.rxBuf
            txq := s.txq ++ (List.range k).map fun j => s.peek .tx (m + j)
            responses := s.responses ++ [0x00000000#32] } ∧
      (∀ i, i < m → some (t.peek .rx i) = s.rxq[i]?) ∧ (∀ i, m ≤ i → t.peek .rx i = s.peek .rx i)

/-- R85's failure, outside the launch premise: START.X ends in a model fault of R172 exactly where its checks pass, its
pump has a chunk to push and TXQ has less room than the chunk needs; and the fault is FifoFull. -/
def Obligations.StartSpiFaultsOnlyWithoutRoom : Prop :=
  ∀ (s : State) (ep : Option Endpoint) (len : BitVec 16) (n m k : Nat) (f : Fault), n = len.toNat →
    m = min n s.rxq.length → k = min (n - m) s.cfg.fifoCap →
    (exec (.startX ep len) s = .fault f ↔
      f = .fifoFull ∧ s.cfg.kind = .spi ∧ (∀ e, ep = some e → e.toNat < s.cfg.nEp) ∧ s.sX.st = .idle ∧ 1 ≤ n ∧
        n ≤ min s.cfg.nTx s.cfg.nRx ∧ 0 < k ∧ s.cfg.fifoCap < s.txq.length + k)

/-! ## STATUS -/

/-- R115 with R27 and R75: STATUS.T and STATUS.X report the code and, in bit 2, the fully-flushed flag, and write nothing. -/
def Obligations.StatusOfTransmitIsAPureRead : Prop :=
  ∀ s : State,
    (s.cfg.kind = .uart → decode s.cfg 0x20000000#32 = .ok .statusT ∧
      exec .statusT s = .next (answered s (BitVec.ofNat 32
        ((if s.sT.st ≠ .inProgress ∧ s.txq = [] ∧ s.txsh = none then 4 else 0) + statusNumber s.sT.st)))) ∧
    (s.cfg.kind = .spi → decode s.cfg 0x20000000#32 = .ok .statusX ∧
      exec .statusX s = .next (answered s (BitVec.ofNat 32
        ((if s.sX.st ≠ .inProgress ∧ s.txq = [] then 4 else 0) + statusNumber s.sX.st))))

/-- R116 with the check of R101, branch by branch: what STATUS.R writes and reports. -/
def Obligations.StatusOfReceiveRunsTheLivenessCheck : Prop :=
  ∀ (s : State), s.cfg.kind = .uart →
    decode s.cfg 0x28000000#32 = .ok .statusR ∧
    (s.sR.st ≠ .inProgress → exec .statusR s = .next (answered s (BitVec.ofNat 32 (statusNumber s.sR.st)))) ∧
    (s.sR.st = .inProgress →
      let c := s.sR.cur
      let f := s.rxq.length
      let keep := answered { s with watch := { s.watch with pcur := c, pfill := f, pvalid := true } } 0x00000001#32
      let aborted := answered { s with sR := { s.sR with st := .timedOut, ie := false } } 0x00000003#32
      let finished := answered { s with sR := { s.sR with st := .finished, ie := false } } 0x00000002#32
      exec .statusR s = .next
        (if s.watch.pvalid = false then keep
         else if c ≠ s.watch.pcur then keep
         else if f = 0 ∧ c = s.sR.len then finished
         else if f = 0 ∧ c = 0 then keep
         else if f = 0 then aborted
         else if f = s.watch.pfill then aborted
         else keep))

/-- From R101 (70_reset_and_hazards.md section 3): two STATUS.R in a row on a running session that holds at least one byte
end it TimedOut. -/
def Obligations.SecondStatusWithoutNewByteAborts : Prop :=
  ∀ (s : State), Inv s → s.cfg.kind = .uart → s.sR.st = .inProgress → 1 ≤ s.sR.cur + s.rxq.length →
    ∃ t u : State, exec .statusR s = .next t ∧ exec .statusR t = .next u ∧ u.sR.st = .timedOut ∧ u.sR.ie = false

/-! ## ACK -/

/-- R117: ACK of a terminal session answers OK, returns it to Idle with cursor 0 and changes nothing else; ACK of any other
session is REJECTED. -/
def Obligations.AcknowledgeReturnsATerminalSessionToIdle : Prop :=
  ∀ s : State,
    (s.cfg.kind = .uart → decode s.cfg 0x30000000#32 = .ok .ackT ∧
      exec .ackT s = .next
        (if s.sT.st = .finished ∨ s.sT.st = .timedOut then
          answered { s with sT := { s.sT with st := .idle, cur := 0 } } 0x00000000#32
         else answered s 0x10000000#32)) ∧
    (s.cfg.kind = .uart → decode s.cfg 0x38000000#32 = .ok .ackR ∧
      exec .ackR s = .next
        (if s.sR.st = .finished ∨ s.sR.st = .timedOut then
          answered { s with sR := { s.sR with st := .idle, cur := 0 } } 0x00000000#32
         else answered s 0x10000000#32)) ∧
    (s.cfg.kind = .spi → decode s.cfg 0x30000000#32 = .ok .ackX ∧
      exec .ackX s = .next
        (if s.sX.st = .finished ∨ s.sX.st = .timedOut then
          answered { s with sX := { s.sX with st := .idle, cur := 0 } } 0x00000000#32
         else answered s 0x10000000#32))

/-- R118: two acknowledgements in a row of a terminal session answer OK, then REJECTED, and leave it Idle. -/
def Obligations.SecondAcknowledgeIsRejected : Prop :=
  ∀ (s : State) (id : SessionId), (ackOf id).wf s.cfg = true →
    (s.session id).st = .finished ∨ (s.session id).st = .timedOut →
    ∃ t u : State, exec (ackOf id) s = .next t ∧ exec (ackOf id) t = .next u ∧
      t.responses = s.responses ++ [0x00000000#32] ∧ u.responses = t.responses ++ [0x10000000#32] ∧
      (u.session id).st = .idle

/-! ## SETTMO, SELECT, DESELECT -/

/-- R119: SETTMO writes the reload register and nothing else, in every session state. -/
def Obligations.SettmoWritesTheReloadRegister : Prop :=
  ∀ (s : State) (nt : Bool) (tmo : BitVec 16), s.cfg.kind = .uart →
    decode s.cfg (0x60000000#32 ||| ((BitVec.ofBool nt).setWidth 32 <<< 16) ||| tmo.setWidth 32) = .ok (.settmo nt tmo) ∧
    exec (.settmo nt tmo) s = .next (answered { s with tmoReload := { nt := nt, val := tmo } } 0x00000000#32)

/-- R120: SELECT writes `cs` unless the active session owns it. -/
def Obligations.SelectDrivesTheEndpoint : Prop :=
  ∀ (s : State) (e : Endpoint), s.cfg.kind = .spi → e.toNat < s.cfg.nEp →
    decode s.cfg (0x40000000#32 ||| (e.setWidth 32 <<< 20)) = .ok (.select e) ∧
    exec (.select e) s = .next
      (if s.sX.st = .inProgress then answered s 0x10000000#32 else answered { s with cs := some e } 0x00000000#32)

/-- R121: DESELECT clears `cs` unless the active session owns it. -/
def Obligations.DeselectReleasesTheEndpoint : Prop :=
  ∀ (s : State), s.cfg.kind = .spi →
    decode s.cfg 0x50000000#32 = .ok .deselect ∧
    exec .deselect s = .next
      (if s.sX.st = .inProgress then answered s 0x10000000#32 else answered { s with cs := none } 0x00000000#32)

/-! ## The buffer port -/

/-- R136 with R138 and R139: BUFWR writes one byte of its buffer and nothing else, unless the owner is InProgress or the
index is outside the buffer. -/
def Obligations.BufferWriteStoresOneByte : Prop :=
  ∀ (s : State) (idx : BitVec 16) (v : Byte),
    decode s.cfg (0x70000000#32 ||| (idx.setWidth 32 <<< 8) ||| v.setWidth 32) = .ok (.bufwrT idx v) ∧
    decode s.cfg (0x78000000#32 ||| (idx.setWidth 32 <<< 8) ||| v.setWidth 32) = .ok (.bufwrR idx v) ∧
    (BusyTx s ∨ s.cfg.nTx ≤ idx.toNat → exec (.bufwrT idx v) s = .next (answered s 0x10000000#32)) ∧
    (BusyRx s ∨ s.cfg.nRx ≤ idx.toNat → exec (.bufwrR idx v) s = .next (answered s 0x10000000#32)) ∧
    (¬ BusyTx s → idx.toNat < s.cfg.nTx →
      ∃ t : State, exec (.bufwrT idx v) s = .next t ∧ t = answered { s with txBuf := t.txBuf } 0x00000000#32 ∧
        t.peek .tx idx.toNat = v ∧ ∀ i, i ≠ idx.toNat → t.peek .tx i = s.peek .tx i) ∧
    (¬ BusyRx s → idx.toNat < s.cfg.nRx →
      ∃ t : State, exec (.bufwrR idx v) s = .next t ∧ t = answered { s with rxBuf := t.rxBuf } 0x00000000#32 ∧
        t.peek .rx idx.toNat = v ∧ ∀ i, i ≠ idx.toNat → t.peek .rx i = s.peek .rx i)

/-- R137 with R77, R138 and R139: BUFRD answers the byte and writes nothing, unless the owner is InProgress or the index is
outside the buffer. -/
def Obligations.BufferReadAnswersTheByte : Prop :=
  ∀ (s : State) (idx : BitVec 16),
    decode s.cfg (0x80000000#32 ||| (idx.setWidth 32 <<< 8)) = .ok (.bufrdT idx) ∧
    decode s.cfg (0x88000000#32 ||| (idx.setWidth 32 <<< 8)) = .ok (.bufrdR idx) ∧
    (BusyTx s ∨ s.cfg.nTx ≤ idx.toNat → exec (.bufrdT idx) s = .next (answered s 0x10000000#32)) ∧
    (BusyRx s ∨ s.cfg.nRx ≤ idx.toNat → exec (.bufrdR idx) s = .next (answered s 0x10000000#32)) ∧
    (¬ BusyTx s → idx.toNat < s.cfg.nTx →
      exec (.bufrdT idx) s = .next (answered s ((s.peek .tx idx.toNat).setWidth 32))) ∧
    (¬ BusyRx s → idx.toNat < s.cfg.nRx →
      exec (.bufrdR idx) s = .next (answered s ((s.peek .rx idx.toNat).setWidth 32)))

/-! ## Events -/

/-- R98: TICK, which is always enabled. -/
def Obligations.TickCountsTheBudgetDown : Prop :=
  ∀ s : State, s.enabled .tick = true ∧
    (∀ b, s.cfg.kind = .uart → s.sR.st = .inProgress → s.watch.tmo = some b → 0 < b - 1 →
      execEvent .tick s = .next { s with watch := { s.watch with tmo := some (b - 1) } }) ∧
    (∀ b, s.cfg.kind = .uart → s.sR.st = .inProgress → s.watch.tmo = some b → b - 1 ≤ 0 →
      execEvent .tick s = .next { s with watch := { s.watch with tmo := some (b - 1) },
                                         sR := { s.sR with st := .timedOut, ie := false } }) ∧
    (s.cfg.kind = .spi ∨ s.sR.st ≠ .inProgress ∨ s.watch.tmo = none → execEvent .tick s = .next s)

/-- R148 and R149: the transmitter takes the head of TXQ, and what it holds leaves on the wire. -/
def Obligations.TransmitterShiftsInOrder : Prop :=
  ∀ (s : State) (b : Byte) (l : List Byte), s.cfg.kind = .uart →
    (s.enabled .txLoad = true ↔ s.txsh = none ∧ s.txq ≠ []) ∧ (s.enabled .txEmit = true ↔ s.txsh ≠ none) ∧
    (s.txsh = none → s.txq = b :: l → execEvent .txLoad s = .next { s with txq := l, txsh := some b }) ∧
    (s.txsh = some b → execEvent .txEmit s = .next { s with wire := s.wire ++ [.uart b], txsh := none })

/-- R150: a byte may arrive at any step; it is queued, or lost with the overflow flag set where RXQ is full. -/
def Obligations.ArrivingByteIsQueuedOrLost : Prop :=
  ∀ (s : State) (b : Byte), s.cfg.kind = .uart → s.enabled (.rxByte b) = true ∧
    (s.rxq.length < s.cfg.fifoCap → execEvent (.rxByte b) s = .next { s with rxq := s.rxq ++ [b] }) ∧
    (s.cfg.fifoCap ≤ s.rxq.length → execEvent (.rxByte b) s = .next { s with rxovf := true })

/-- From R152: one full-duplex exchange. That it is enabled exactly while TXQ holds a byte rests on log 17 (PRESUMED: the
spec marks that an SPI master clocks only while it has a byte to send as general knowledge, not in source). -/
def Obligations.ExchangeSendsOneByteAndReceivesOne : Prop :=
  ∀ (s : State) (r : Byte), s.cfg.kind = .spi → (s.enabled (.xchg r) = true ↔ s.txq ≠ []) ∧
    ∀ (b : Byte) (l : List Byte), s.txq = b :: l →
    (s.rxq.length < s.cfg.fifoCap →
      execEvent (.xchg r) s = .next { s with txq := l, wire := s.wire ++ [.spi s.cs b], rxq := s.rxq ++ [r] }) ∧
    (s.cfg.fifoCap ≤ s.rxq.length →
      execEvent (.xchg r) s = .next { s with txq := l, wire := s.wire ++ [.spi s.cs b], rxovf := true })

/-- R83 with the epilogue R82: IRQ_T refills TXQ from TxBuf at the cursor and writes nothing else. -/
def Obligations.TransmitInterruptRefills : Prop :=
  ∀ (s : State) (n : Nat), n = min (s.sT.len - s.sT.cur) (s.cfg.fifoCap - s.txq.length) →
    s.cfg.kind = .uart → s.req .t = true → s.sT.st = .inProgress → s.sT.cur ≤ s.sT.len → s.sT.len ≤ s.cfg.nTx →
    s.txq.length ≤ s.cfg.fifoCap →
    execEvent .irqT s = .next
      { s with
        sT := { st := if s.sT.cur + n = s.sT.len then .finished else .inProgress, len := s.sT.len,
                cur := s.sT.cur + n, thr := min (s.sT.len - (s.sT.cur + n)) s.cfg.fifoCap,
                ie := decide (s.sT.cur + n ≠ s.sT.len) }
        txq := s.txq ++ (List.range n).map fun j => s.peek .tx (s.sT.cur + j) }

/-- R84 with the epilogue R82: IRQ_R drains RXQ into RxBuf at the cursor and writes nothing else; excess bytes stay. -/
def Obligations.ReceiveInterruptDrains : Prop :=
  ∀ (s : State) (n : Nat), n = min (s.sR.len - s.sR.cur) s.rxq.length →
    s.cfg.kind = .uart → s.req .r = true → s.sR.st = .inProgress → s.sR.cur ≤ s.sR.len → s.sR.len ≤ s.cfg.nRx →
    ∃ t : State, execEvent .irqR s = .next t ∧
      t = { s with
            sR := { st := if s.sR.cur + n = s.sR.len then .finished else .inProgress, len := s.sR.len,
                    cur := s.sR.cur + n, thr := min (s.sR.len - (s.sR.cur + n)) s.cfg.fifoCap,
                    ie := decide (s.sR.cur + n ≠ s.sR.len) }
            rxq := s.rxq.drop n
            rxBuf := t.rxBuf } ∧
      (∀ j, j < n → some (t.peek .rx (s.sR.cur + j)) = s.rxq[j]?) ∧
      (∀ i, i < s.sR.cur ∨ s.sR.cur + n ≤ i → t.peek .rx i = s.peek .rx i)

/-- R85 with the epilogue R82: IRQ_X drains the chunk in flight, then pushes the next, and writes nothing else. -/
def Obligations.SpiInterruptDrainsThenFills : Prop :=
  ∀ (s : State) (n k : Nat), n = min (s.sX.len - s.sX.cur) s.rxq.length →
    k = min (s.sX.len - (s.sX.cur + n)) s.cfg.fifoCap →
    s.cfg.kind = .spi → s.req .x = true → s.sX.st = .inProgress → s.sX.cur ≤ s.sX.len →
    s.sX.len ≤ min s.cfg.nTx s.cfg.nRx → k = 0 ∨ s.txq.length + k ≤ s.cfg.fifoCap →
    ∃ t : State, execEvent .irqX s = .next t ∧
      t = { s with
            sX := { st := if s.sX.cur + n = s.sX.len then .finished else .inProgress, len := s.sX.len,
                    cur := s.sX.cur + n, thr := k, ie := decide (s.sX.cur + n ≠ s.sX.len) }
            rxq := s.rxq.drop n
            rxBuf := t.rxBuf
            txq := s.txq ++ (List.range k).map fun j => s.peek .tx (s.sX.cur + n + j) } ∧
      (∀ j, j < n → some (t.peek .rx (s.sX.cur + j)) = s.rxq[j]?) ∧
      (∀ i, i < s.sX.cur ∨ s.sX.cur + n ≤ i → t.peek .rx i = s.peek .rx i)

/-- R82: every pump of a running session ends with the epilogue: threshold, status and enable follow from the cursor. -/
def Obligations.EveryPumpEndsWithTheEpilogue : Prop :=
  ∀ (s t : State) (id : SessionId), (s.session id).st = .inProgress → (s.session id).cur ≤ (s.session id).len →
    s.pump id = .ok t →
    (t.session id).thr = min ((t.session id).len - (t.session id).cur) t.cfg.fifoCap ∧
      (t.session id).st = (if (t.session id).cur = (t.session id).len then .finished else .inProgress) ∧
      ((t.session id).ie = true ↔ (t.session id).st = .inProgress)

/-- R93: each interrupt event is enabled exactly while its request holds on its kind of instance, never with the enable
off; its effect is the pump; no pump fails; after it the request is gone. -/
def Obligations.InterruptRunsThePumpAndFalls : Prop :=
  ∀ (s : State) (id : SessionId), Inv s →
    (s.enabled (irqOf id) = true ↔ s.req id = true ∧ (s.cfg.kind = if id = .x then .spi else .uart)) ∧
    ((s.session id).ie = false → s.enabled (irqOf id) = false) ∧
    (s.enabled (irqOf id) = true →
      ∃ t : State, execEvent (irqOf id) s = .next t ∧ s.pump id = .ok t ∧
        (t.session id).cur = (s.session id).cur + (s.session id).thr ∧
        t.req id = false ∧ t.enabled (irqOf id) = false)

/-! ## Invariants of every step -/

/-- The machine's invariant: every step from a state that meets it leads to a state that meets it. -/
def Obligations.EveryStepKeepsTheInvariant : Prop :=
  ∀ s t : State, Inv s → step s = .next t → Inv t

/-- From a state that meets the invariant every step completes: no command and no event stops the block. -/
def Obligations.EveryStepCompletes : Prop :=
  ∀ s : State, Inv s → ∃ t : State, step s = .next t

/-- R30 and R31 in every state reachable from reset, for every legal choice of the parameters, whatever the agents do. -/
def Obligations.ReachableSessionsMeetTheirInvariants : Prop :=
  ∀ (c : Config) (l : List AgentStep) (n : Nat) (t : State), c.wf →
    Host.Core.run Sys2Proof.core n { State.resetOf c with schedule := l } = .next t →
    ∀ id, CursorInvariant (t.session id) ∧ EnableInvariant (t.session id)

/-- R88 in every state reachable from reset of an SPI instance, whatever the agents do: one chunk at most is in flight. -/
def Obligations.ReachableSpiFifosHoldOneChunk : Prop :=
  ∀ (c : Config) (l : List AgentStep) (n : Nat) (t : State), c.wf → c.kind = .spi →
    Host.Core.run Sys2Proof.core n { State.resetOf c with schedule := l } = .next t →
    (t.sX.st = .inProgress → t.txq.length + t.rxq.length = t.sX.thr) ∧
      (t.sX.st ≠ .inProgress → t.txq = [] ∧ t.rxq = []) ∧ t.rxovf = false ∧
      (t.enabled .irqX = true → t.rxq.length = t.sX.thr ∧ t.txq = [])

/-- From R100, in every state reachable from reset: the budget's range; a budget below 0 has expired. -/
def Obligations.ReachableBudgetsStayInRange : Prop :=
  ∀ (c : Config) (l : List AgentStep) (n : Nat) (t : State) (b : Int), c.wf →
    Host.Core.run Sys2Proof.core n { State.resetOf c with schedule := l } = .next t → t.watch.tmo = some b →
    -1 ≤ b ∧ b ≤ 65535 ∧ (b = -1 → t.sR.st ≠ .inProgress)

/-- No run from reset ends in a model fault or a refusal, whatever the agents do. -/
def Obligations.NoRunFromResetStops : Prop :=
  ∀ (c : Config) (l : List AgentStep) (n : Nat), c.wf →
    ∃ t : State, Host.Core.run Sys2Proof.core n { State.resetOf c with schedule := l } = .next t

/-- R29: the only transitions of a session's status, each with the step that makes it. -/
def Obligations.OnlyTheListedTransitionsHappen : Prop :=
  ∀ (s t : State) (id : SessionId), Inv s → step s = .next t →
    (t.session id).st = (s.session id).st ∨
    ((s.session id).st = .idle ∧ (t.session id).st = .inProgress ∧ ∃ i, isStartOf id i ∧ NextCommandIs s i) ∨
    ((s.session id).st = .idle ∧ (t.session id).st = .finished ∧ id ≠ .x ∧ ∃ i, isStartOf id i ∧ NextCommandIs s i) ∨
    ((s.session id).st = .inProgress ∧ (t.session id).st = .finished ∧ (t.session id).cur = (t.session id).len ∧
      s.takeAgentStep.1 = .event (irqOf id)) ∨
    ((s.session id).st = .inProgress ∧ (t.session id).st = .timedOut ∧ id = .r ∧
      (s.takeAgentStep.1 = .event .tick ∨ NextCommandIs s .statusR)) ∨
    (((s.session id).st = .finished ∨ (s.session id).st = .timedOut) ∧ (t.session id).st = .idle ∧
      NextCommandIs s (ackOf id))

/-- From R89: while a session is InProgress no step changes its length or moves its cursor back or past the length. -/
def Obligations.CursorOnlyAdvances : Prop :=
  ∀ (s t : State) (id : SessionId), Inv s → (s.session id).st = .inProgress → step s = .next t →
    (t.session id).len = (s.session id).len ∧ (s.session id).cur ≤ (t.session id).cur ∧
      (t.session id).cur ≤ (t.session id).len

/-- R122: at most one endpoint is asserted; `cs` does not change while S_X is InProgress; every byte that leaves is sent
under it. -/
def Obligations.ChipSelectIsHeldDuringATransfer : Prop :=
  (∀ (s : State) (e e' : Endpoint), s.chipSelect e = true → s.chipSelect e' = true → e = e') ∧
    ∀ s t : State, Inv s → s.cfg.kind = .spi → s.sX.st = .inProgress → step s = .next t →
      t.cs = s.cs ∧ ∃ l : List Byte, t.wire = s.wire ++ l.map (WireEntry.spi s.cs)

/-- From R42 and R141: only BUFWR.T writes TxBuf; only BUFWR.R and the receiving pumps (START.R, START.X, IRQ_R, IRQ_X)
write RxBuf. -/
def Obligations.BuffersAreWrittenOnlyByTheirWriters : Prop :=
  ∀ s t : State, step s = .next t →
    (t.txBuf = s.txBuf ∨ ∃ k v, NextCommandIs s (.bufwrT k v)) ∧
    (t.rxBuf = s.rxBuf ∨ (∃ k v, NextCommandIs s (.bufwrR k v)) ∨ (∃ n, NextCommandIs s (.startR n)) ∨
      (∃ ep n, NextCommandIs s (.startX ep n)) ∨ s.takeAgentStep.1 = .event .irqR ∨
      s.takeAgentStep.1 = .event .irqX)

/-- From R45: while the session that owns a buffer is InProgress, no command of the host changes the buffer. -/
def Obligations.HostCannotWriteABusyBuffer : Prop :=
  ∀ (s t : State) (B : Buf) (w : Word), Inv s → s.takeAgentStep.1 = .command w →
    (s.session (s.owner B)).st = .inProgress → step s = .next t → t.buf B = s.buf B

/-- From R15: the two halves of a UART instance are independent. -/
def Obligations.UartHalvesAreIndependent : Prop :=
  ∀ s : State, s.cfg.kind = .uart →
    (∀ (i : Instr) (t : State), (isStartOf .t i ∨ i = .statusT ∨ i = .ackT ∨ (∃ k v, i = .bufwrT k v) ∨ ∃ k, i = .bufrdT k) →
      exec i s = .next t →
      t.sR = s.sR ∧ t.watch = s.watch ∧ t.rxBuf = s.rxBuf ∧ t.rxq = s.rxq ∧ t.rxovf = s.rxovf) ∧
    (∀ (i : Instr) (t : State), (isStartOf .r i ∨ i = .statusR ∨ i = .ackR ∨ (∃ k v, i = .bufwrR k v) ∨ ∃ k, i = .bufrdR k) →
      exec i s = .next t →
      t.sT = s.sT ∧ t.txBuf = s.txBuf ∧ t.txq = s.txq ∧ t.txsh = s.txsh ∧ t.wire = s.wire) ∧
    (∀ (e : Event) (t : State), (e = .irqT ∨ e = .txLoad ∨ e = .txEmit) → execEvent e s = .next t →
      t.sR = s.sR ∧ t.watch = s.watch ∧ t.rxBuf = s.rxBuf ∧ t.rxq = s.rxq ∧ t.rxovf = s.rxovf) ∧
    (∀ (e : Event) (t : State), (e = .irqR ∨ e = .tick ∨ ∃ b, e = .rxByte b) → execEvent e s = .next t →
      t.sT = s.sT ∧ t.txBuf = s.txBuf ∧ t.txq = s.txq ∧ t.txsh = s.txsh ∧ t.wire = s.wire)

/-- R95: the bytes on the wire, in the shift register and in TXQ, in order, are only ever added to at the end: nothing that a
pump has pushed is lost or overtaken; and only the collaborators' shifting takes a byte out of TXQ. -/
def Obligations.QueuedBytesAreAlwaysEmittedInOrder : Prop :=
  ∀ s t : State, Inv s → step s = .next t →
    (∃ l : List Byte, t.outStream = s.outStream ++ l) ∧
      ((∃ l : List Byte, t.txq = s.txq ++ l) ∨ s.takeAgentStep.1 = .event .txLoad ∨
        ∃ r, s.takeAgentStep.1 = .event (.xchg r))

/-- From R48 and R140: a UART transmit session sends TxBuf from index 0 in order, behind what was queued before it, in every
interleaving. -/
def Obligations.TransmitSessionSendsTheBufferInOrder : Prop :=
  (∀ (s t : State) (n : BitVec 16), s.cfg.kind = .uart → s.sT.st = .idle → exec (.startT n) s = .next t →
    t.sT.st ≠ .idle → t.outStream = s.outStream ++ t.bytesAt .tx 0 t.sT.cur) ∧
  ∀ (s t : State) (before : List Byte), Inv s → s.cfg.kind = .uart → s.sT.st = .inProgress →
    s.outStream = before ++ s.bytesAt .tx 0 s.sT.cur → step s = .next t →
    t.outStream = before ++ t.bytesAt .tx 0 t.sT.cur

/-- From R87 and R153: under the loopback double an SPI session returns in RxBuf what it sent from TxBuf. -/
def Obligations.LoopbackSessionReturnsWhatItSent : Prop :=
  (∀ (s t : State) (ep : Option Endpoint) (n : BitVec 16), Inv s → s.cfg.kind = .spi → s.sX.st = .idle →
    exec (.startX ep n) s = .next t → t.sX.st ≠ .idle → t.sX.st = .inProgress ∧ EchoSoFar t) ∧
  ∀ s t : State, Inv s → s.cfg.kind = .spi → s.sX.st = .inProgress → EchoSoFar s → LoopbackStep s →
    step s = .next t →
    (t.sX.st = .inProgress ∧ EchoSoFar t) ∨
      (t.sX.st = .finished ∧ ∀ i, i < t.sX.len → t.peek .rx i = t.peek .tx i)

/-- From R94: each interrupt taken while it is enabled moves one chunk, no other step moves any, and the last chunk finishes the session; a session
starts with as many chunks as its length over FIFO_CAP, rounded up, of which START.T with an empty TXQ has moved one. -/
def Obligations.SessionsTakeOneInterruptPerChunk : Prop :=
  (∀ (s t : State) (id : SessionId), Inv s → (s.session id).st = .inProgress → step s = .next t →
    if s.takeAgentStep.1 = .event (irqOf id) ∧ s.enabled (irqOf id) = true then
      (t.session id).chunksLeft t.cfg.fifoCap + 1 = (s.session id).chunksLeft s.cfg.fifoCap ∧
        ((t.session id).st = .finished ↔ (t.session id).chunksLeft t.cfg.fifoCap = 0)
    else (t.session id).cur = (s.session id).cur) ∧
  (∀ (s t : State) (n : BitVec 16), Inv s → s.cfg.kind = .uart → s.sT.st = .idle → s.txq = [] →
    exec (.startT n) s = .next t → t.sT.st ≠ .idle →
    t.sT.chunksLeft s.cfg.fifoCap + 1 = (n.toNat + s.cfg.fifoCap - 1) / s.cfg.fifoCap) ∧
  (∀ (s t : State) (n : BitVec 16), Inv s → s.cfg.kind = .uart → s.sR.st = .idle → s.rxq = [] →
    exec (.startR n) s = .next t → t.sR.st ≠ .idle →
    t.sR.chunksLeft s.cfg.fifoCap = (n.toNat + s.cfg.fifoCap - 1) / s.cfg.fifoCap) ∧
  (∀ (s t : State) (ep : Option Endpoint) (n : BitVec 16), Inv s → s.cfg.kind = .spi → s.sX.st = .idle →
    exec (.startX ep n) s = .next t → t.sX.st ≠ .idle →
    t.sX.chunksLeft s.cfg.fifoCap = (n.toNat + s.cfg.fifoCap - 1) / s.cfg.fifoCap)

/-- From R99, for a session to which no byte arrives: with a budget of B it is InProgress while fewer than max(B, 1) ticks
have passed and TimedOut right after tick number max(B, 1), whatever the other agents do between the ticks. -/
def Obligations.BudgetExpiresAtExactlyItsLastTick : Prop :=
  ∀ (s : State) (B : Nat), Inv s → s.cfg.kind = .uart → s.sR.st = .inProgress → s.sR.cur = 0 → s.rxq = [] →
    s.watch.tmo = some (B : Int) → (∀ b, AgentStep.event (.rxByte b) ∉ s.schedule) →
    ∃ t : State, Host.Core.run Sys2Proof.core s.schedule.length s = .next t ∧
      (s.schedule.count (.event .tick) < max B 1 → t.sR.st = .inProgress) ∧
      (s.schedule.count (.event .tick) = max B 1 → s.schedule.getLast? = some (.event .tick) → t.sR.st = .timedOut)

/-- From R90: on SPI, Finished means every byte has been exchanged, so STATUS.X reports Finished with the
fully-flushed flag. -/
def Obligations.SpiFinishedIsFlushed : Prop :=
  ∀ s : State, Inv s → s.cfg.kind = .spi → s.sX.st = .finished →
    s.txq = [] ∧ exec .statusX s = .next (answered s 0x00000006#32)

/-! ## The assembler -/

/-- From R78: the word of each row of the assembler's table, from the row's mnemonic and its operands already read (how a
line's text is read into them is log 16's); an operand out of its field's range is an assembly error. -/
def Obligations.AssemblerWritesTheTablesWords : Prop :=
  (∀ row ∈ [("STATUS.T", 0x20000000#32), ("STATUS.R", 0x28000000#32), ("STATUS.X", 0x20000000#32),
      ("ACK.T", 0x30000000#32), ("ACK.R", 0x38000000#32), ("ACK.X", 0x30000000#32), ("DESELECT", 0x50000000#32)],
    (assembleLine row.1 []).map (List.map encode) = some [row.2]) ∧
  (assembleLine "SETTMO" [.none]).map (List.map encode) = some [0x60010000#32] ∧
  (∀ n : Nat, (assembleLine "START.T" [.num n]).map (List.map encode) =
      if n ≤ 65535 then some [0x10000000#32 ||| BitVec.ofNat 32 n] else none) ∧
  (∀ n : Nat, (assembleLine "START.R" [.num n]).map (List.map encode) =
      if n ≤ 65535 then some [0x18000000#32 ||| BitVec.ofNat 32 n] else none) ∧
  (∀ n : Nat, (assembleLine "START.X" [.num n]).map (List.map encode) =
      if n ≤ 65535 then some [0x10000000#32 ||| BitVec.ofNat 32 n] else none) ∧
  (∀ n e : Nat, (assembleLine "START.X" [.num n, .endpoint e]).map (List.map encode) =
      if n ≤ 65535 ∧ e ≤ 15 then
        some [0x14000000#32 ||| (BitVec.ofNat 32 e <<< 20) ||| BitVec.ofNat 32 n] else none) ∧
  (∀ e : Nat, (assembleLine "SELECT" [.endpoint e]).map (List.map encode) =
      if e ≤ 15 then some [0x40000000#32 ||| (BitVec.ofNat 32 e <<< 20)] else none) ∧
  (∀ n : Nat, (assembleLine "SETTMO" [.num n]).map (List.map encode) =
      if n ≤ 65535 then some [0x60000000#32 ||| BitVec.ofNat 32 n] else none) ∧
  (∀ i b : Nat, (assembleLine "BUFWR.T" [.num i, .num b]).map (List.map encode) =
      if i ≤ 65535 ∧ b ≤ 255 then
        some [0x70000000#32 ||| (BitVec.ofNat 32 i <<< 8) ||| BitVec.ofNat 32 b] else none) ∧
  (∀ i b : Nat, (assembleLine "BUFWR.R" [.num i, .num b]).map (List.map encode) =
      if i ≤ 65535 ∧ b ≤ 255 then
        some [0x78000000#32 ||| (BitVec.ofNat 32 i <<< 8) ||| BitVec.ofNat 32 b] else none) ∧
  (∀ i : Nat, (assembleLine "BUFRD.T" [.num i]).map (List.map encode) =
      if i ≤ 65535 then some [0x80000000#32 ||| (BitVec.ofNat 32 i <<< 8)] else none) ∧
  (∀ i : Nat, (assembleLine "BUFRD.R" [.num i]).map (List.map encode) =
      if i ≤ 65535 then some [0x88000000#32 ||| (BitVec.ofNat 32 i <<< 8)] else none)
end

