-- ==== Sys2Proof/Laws/State.lean ====
section
/-! SUPPORT. One lemma per field per update of the state, so that no proof unfolds a record update. -/

namespace Sys2Proof.Machine

/-! `setSession` -/
@[simp] theorem setSession_cfg (s : State) (id : SessionId) (f : Session) : (s.setSession id f).cfg = s.cfg := by cases id <;> rfl
@[simp] theorem setSession_watch (s : State) (id : SessionId) (f : Session) : (s.setSession id f).watch = s.watch := by cases id <;> rfl
@[simp] theorem setSession_tmoReload (s : State) (id : SessionId) (f : Session) : (s.setSession id f).tmoReload = s.tmoReload := by cases id <;> rfl
@[simp] theorem setSession_cs (s : State) (id : SessionId) (f : Session) : (s.setSession id f).cs = s.cs := by cases id <;> rfl
@[simp] theorem setSession_txBuf (s : State) (id : SessionId) (f : Session) : (s.setSession id f).txBuf = s.txBuf := by cases id <;> rfl
@[simp] theorem setSession_rxBuf (s : State) (id : SessionId) (f : Session) : (s.setSession id f).rxBuf = s.rxBuf := by cases id <;> rfl
@[simp] theorem setSession_txq (s : State) (id : SessionId) (f : Session) : (s.setSession id f).txq = s.txq := by cases id <;> rfl
@[simp] theorem setSession_rxq (s : State) (id : SessionId) (f : Session) : (s.setSession id f).rxq = s.rxq := by cases id <;> rfl
@[simp] theorem setSession_txsh (s : State) (id : SessionId) (f : Session) : (s.setSession id f).txsh = s.txsh := by cases id <;> rfl
@[simp] theorem setSession_rxovf (s : State) (id : SessionId) (f : Session) : (s.setSession id f).rxovf = s.rxovf := by cases id <;> rfl
@[simp] theorem setSession_wire (s : State) (id : SessionId) (f : Session) : (s.setSession id f).wire = s.wire := by cases id <;> rfl
@[simp] theorem setSession_responses (s : State) (id : SessionId) (f : Session) : (s.setSession id f).responses = s.responses := by cases id <;> rfl
@[simp] theorem setSession_schedule (s : State) (id : SessionId) (f : Session) : (s.setSession id f).schedule = s.schedule := by cases id <;> rfl
@[simp] theorem setSession_drawn (s : State) (id : SessionId) (f : Session) : (s.setSession id f).drawn = s.drawn := by cases id <;> rfl

/-! `setBuf` -/
@[simp] theorem setBuf_cfg (s : State) (B : Buf) (m : Memory) : (s.setBuf B m).cfg = s.cfg := by cases B <;> rfl
@[simp] theorem setBuf_sT (s : State) (B : Buf) (m : Memory) : (s.setBuf B m).sT = s.sT := by cases B <;> rfl
@[simp] theorem setBuf_sR (s : State) (B : Buf) (m : Memory) : (s.setBuf B m).sR = s.sR := by cases B <;> rfl
@[simp] theorem setBuf_sX (s : State) (B : Buf) (m : Memory) : (s.setBuf B m).sX = s.sX := by cases B <;> rfl
@[simp] theorem setBuf_watch (s : State) (B : Buf) (m : Memory) : (s.setBuf B m).watch = s.watch := by cases B <;> rfl
@[simp] theorem setBuf_tmoReload (s : State) (B : Buf) (m : Memory) : (s.setBuf B m).tmoReload = s.tmoReload := by cases B <;> rfl
@[simp] theorem setBuf_cs (s : State) (B : Buf) (m : Memory) : (s.setBuf B m).cs = s.cs := by cases B <;> rfl
@[simp] theorem setBuf_txq (s : State) (B : Buf) (m : Memory) : (s.setBuf B m).txq = s.txq := by cases B <;> rfl
@[simp] theorem setBuf_rxq (s : State) (B : Buf) (m : Memory) : (s.setBuf B m).rxq = s.rxq := by cases B <;> rfl
@[simp] theorem setBuf_txsh (s : State) (B : Buf) (m : Memory) : (s.setBuf B m).txsh = s.txsh := by cases B <;> rfl
@[simp] theorem setBuf_rxovf (s : State) (B : Buf) (m : Memory) : (s.setBuf B m).rxovf = s.rxovf := by cases B <;> rfl
@[simp] theorem setBuf_wire (s : State) (B : Buf) (m : Memory) : (s.setBuf B m).wire = s.wire := by cases B <;> rfl
@[simp] theorem setBuf_responses (s : State) (B : Buf) (m : Memory) : (s.setBuf B m).responses = s.responses := by cases B <;> rfl
@[simp] theorem setBuf_schedule (s : State) (B : Buf) (m : Memory) : (s.setBuf B m).schedule = s.schedule := by cases B <;> rfl
@[simp] theorem setBuf_drawn (s : State) (B : Buf) (m : Memory) : (s.setBuf B m).drawn = s.drawn := by cases B <;> rfl

/-! `poke` -/
@[simp] theorem poke_cfg (s : State) (B : Buf) (i : Nat) (v : Byte) : (s.poke B i v).cfg = s.cfg := by cases B <;> rfl
@[simp] theorem poke_sT (s : State) (B : Buf) (i : Nat) (v : Byte) : (s.poke B i v).sT = s.sT := by cases B <;> rfl
@[simp] theorem poke_sR (s : State) (B : Buf) (i : Nat) (v : Byte) : (s.poke B i v).sR = s.sR := by cases B <;> rfl
@[simp] theorem poke_sX (s : State) (B : Buf) (i : Nat) (v : Byte) : (s.poke B i v).sX = s.sX := by cases B <;> rfl
@[simp] theorem poke_watch (s : State) (B : Buf) (i : Nat) (v : Byte) : (s.poke B i v).watch = s.watch := by cases B <;> rfl
@[simp] theorem poke_tmoReload (s : State) (B : Buf) (i : Nat) (v : Byte) : (s.poke B i v).tmoReload = s.tmoReload := by cases B <;> rfl
@[simp] theorem poke_cs (s : State) (B : Buf) (i : Nat) (v : Byte) : (s.poke B i v).cs = s.cs := by cases B <;> rfl
@[simp] theorem poke_txq (s : State) (B : Buf) (i : Nat) (v : Byte) : (s.poke B i v).txq = s.txq := by cases B <;> rfl
@[simp] theorem poke_rxq (s : State) (B : Buf) (i : Nat) (v : Byte) : (s.poke B i v).rxq = s.rxq := by cases B <;> rfl
@[simp] theorem poke_txsh (s : State) (B : Buf) (i : Nat) (v : Byte) : (s.poke B i v).txsh = s.txsh := by cases B <;> rfl
@[simp] theorem poke_rxovf (s : State) (B : Buf) (i : Nat) (v : Byte) : (s.poke B i v).rxovf = s.rxovf := by cases B <;> rfl
@[simp] theorem poke_wire (s : State) (B : Buf) (i : Nat) (v : Byte) : (s.poke B i v).wire = s.wire := by cases B <;> rfl
@[simp] theorem poke_responses (s : State) (B : Buf) (i : Nat) (v : Byte) : (s.poke B i v).responses = s.responses := by cases B <;> rfl
@[simp] theorem poke_schedule (s : State) (B : Buf) (i : Nat) (v : Byte) : (s.poke B i v).schedule = s.schedule := by cases B <;> rfl
@[simp] theorem poke_drawn (s : State) (B : Buf) (i : Nat) (v : Byte) : (s.poke B i v).drawn = s.drawn := by cases B <;> rfl

/-! `setFifo` -/
@[simp] theorem setFifo_cfg (s : State) (q : Fifo) (l : List Byte) : (s.setFifo q l).cfg = s.cfg := by cases q <;> rfl
@[simp] theorem setFifo_sT (s : State) (q : Fifo) (l : List Byte) : (s.setFifo q l).sT = s.sT := by cases q <;> rfl
@[simp] theorem setFifo_sR (s : State) (q : Fifo) (l : List Byte) : (s.setFifo q l).sR = s.sR := by cases q <;> rfl
@[simp] theorem setFifo_sX (s : State) (q : Fifo) (l : List Byte) : (s.setFifo q l).sX = s.sX := by cases q <;> rfl
@[simp] theorem setFifo_watch (s : State) (q : Fifo) (l : List Byte) : (s.setFifo q l).watch = s.watch := by cases q <;> rfl
@[simp] theorem setFifo_tmoReload (s : State) (q : Fifo) (l : List Byte) : (s.setFifo q l).tmoReload = s.tmoReload := by cases q <;> rfl
@[simp] theorem setFifo_cs (s : State) (q : Fifo) (l : List Byte) : (s.setFifo q l).cs = s.cs := by cases q <;> rfl
@[simp] theorem setFifo_txBuf (s : State) (q : Fifo) (l : List Byte) : (s.setFifo q l).txBuf = s.txBuf := by cases q <;> rfl
@[simp] theorem setFifo_rxBuf (s : State) (q : Fifo) (l : List Byte) : (s.setFifo q l).rxBuf = s.rxBuf := by cases q <;> rfl
@[simp] theorem setFifo_txsh (s : State) (q : Fifo) (l : List Byte) : (s.setFifo q l).txsh = s.txsh := by cases q <;> rfl
@[simp] theorem setFifo_rxovf (s : State) (q : Fifo) (l : List Byte) : (s.setFifo q l).rxovf = s.rxovf := by cases q <;> rfl
@[simp] theorem setFifo_wire (s : State) (q : Fifo) (l : List Byte) : (s.setFifo q l).wire = s.wire := by cases q <;> rfl
@[simp] theorem setFifo_responses (s : State) (q : Fifo) (l : List Byte) : (s.setFifo q l).responses = s.responses := by cases q <;> rfl
@[simp] theorem setFifo_schedule (s : State) (q : Fifo) (l : List Byte) : (s.setFifo q l).schedule = s.schedule := by cases q <;> rfl
@[simp] theorem setFifo_drawn (s : State) (q : Fifo) (l : List Byte) : (s.setFifo q l).drawn = s.drawn := by cases q <;> rfl

/-! `respond` -/
@[simp] theorem respond_cfg (s : State) (rc : ResultCode) (p : BitVec 28) : (s.respond rc p).cfg = s.cfg := rfl
@[simp] theorem respond_sT (s : State) (rc : ResultCode) (p : BitVec 28) : (s.respond rc p).sT = s.sT := rfl
@[simp] theorem respond_sR (s : State) (rc : ResultCode) (p : BitVec 28) : (s.respond rc p).sR = s.sR := rfl
@[simp] theorem respond_sX (s : State) (rc : ResultCode) (p : BitVec 28) : (s.respond rc p).sX = s.sX := rfl
@[simp] theorem respond_watch (s : State) (rc : ResultCode) (p : BitVec 28) : (s.respond rc p).watch = s.watch := rfl
@[simp] theorem respond_tmoReload (s : State) (rc : ResultCode) (p : BitVec 28) : (s.respond rc p).tmoReload = s.tmoReload := rfl
@[simp] theorem respond_cs (s : State) (rc : ResultCode) (p : BitVec 28) : (s.respond rc p).cs = s.cs := rfl
@[simp] theorem respond_txBuf (s : State) (rc : ResultCode) (p : BitVec 28) : (s.respond rc p).txBuf = s.txBuf := rfl
@[simp] theorem respond_rxBuf (s : State) (rc : ResultCode) (p : BitVec 28) : (s.respond rc p).rxBuf = s.rxBuf := rfl
@[simp] theorem respond_txq (s : State) (rc : ResultCode) (p : BitVec 28) : (s.respond rc p).txq = s.txq := rfl
@[simp] theorem respond_rxq (s : State) (rc : ResultCode) (p : BitVec 28) : (s.respond rc p).rxq = s.rxq := rfl
@[simp] theorem respond_txsh (s : State) (rc : ResultCode) (p : BitVec 28) : (s.respond rc p).txsh = s.txsh := rfl
@[simp] theorem respond_rxovf (s : State) (rc : ResultCode) (p : BitVec 28) : (s.respond rc p).rxovf = s.rxovf := rfl
@[simp] theorem respond_wire (s : State) (rc : ResultCode) (p : BitVec 28) : (s.respond rc p).wire = s.wire := rfl
@[simp] theorem respond_schedule (s : State) (rc : ResultCode) (p : BitVec 28) : (s.respond rc p).schedule = s.schedule := rfl
@[simp] theorem respond_drawn (s : State) (rc : ResultCode) (p : BitVec 28) : (s.respond rc p).drawn = s.drawn := rfl

/-! `advance` -/
@[simp] theorem advance_cfg (s : State) (id : SessionId) (n : Nat) : (s.advance id n).cfg = s.cfg := by cases id <;> rfl
@[simp] theorem advance_watch (s : State) (id : SessionId) (n : Nat) : (s.advance id n).watch = s.watch := by cases id <;> rfl
@[simp] theorem advance_tmoReload (s : State) (id : SessionId) (n : Nat) : (s.advance id n).tmoReload = s.tmoReload := by cases id <;> rfl
@[simp] theorem advance_cs (s : State) (id : SessionId) (n : Nat) : (s.advance id n).cs = s.cs := by cases id <;> rfl
@[simp] theorem advance_txBuf (s : State) (id : SessionId) (n : Nat) : (s.advance id n).txBuf = s.txBuf := by cases id <;> rfl
@[simp] theorem advance_rxBuf (s : State) (id : SessionId) (n : Nat) : (s.advance id n).rxBuf = s.rxBuf := by cases id <;> rfl
@[simp] theorem advance_txq (s : State) (id : SessionId) (n : Nat) : (s.advance id n).txq = s.txq := by cases id <;> rfl
@[simp] theorem advance_rxq (s : State) (id : SessionId) (n : Nat) : (s.advance id n).rxq = s.rxq := by cases id <;> rfl
@[simp] theorem advance_txsh (s : State) (id : SessionId) (n : Nat) : (s.advance id n).txsh = s.txsh := by cases id <;> rfl
@[simp] theorem advance_rxovf (s : State) (id : SessionId) (n : Nat) : (s.advance id n).rxovf = s.rxovf := by cases id <;> rfl
@[simp] theorem advance_wire (s : State) (id : SessionId) (n : Nat) : (s.advance id n).wire = s.wire := by cases id <;> rfl
@[simp] theorem advance_responses (s : State) (id : SessionId) (n : Nat) : (s.advance id n).responses = s.responses := by cases id <;> rfl
@[simp] theorem advance_schedule (s : State) (id : SessionId) (n : Nat) : (s.advance id n).schedule = s.schedule := by cases id <;> rfl
@[simp] theorem advance_drawn (s : State) (id : SessionId) (n : Nat) : (s.advance id n).drawn = s.drawn := by cases id <;> rfl

/-! `epilogue` -/
@[simp] theorem epilogue_cfg (s : State) (id : SessionId) : (s.epilogue id).cfg = s.cfg := by cases id <;> rfl
@[simp] theorem epilogue_watch (s : State) (id : SessionId) : (s.epilogue id).watch = s.watch := by cases id <;> rfl
@[simp] theorem epilogue_tmoReload (s : State) (id : SessionId) : (s.epilogue id).tmoReload = s.tmoReload := by cases id <;> rfl
@[simp] theorem epilogue_cs (s : State) (id : SessionId) : (s.epilogue id).cs = s.cs := by cases id <;> rfl
@[simp] theorem epilogue_txBuf (s : State) (id : SessionId) : (s.epilogue id).txBuf = s.txBuf := by cases id <;> rfl
@[simp] theorem epilogue_rxBuf (s : State) (id : SessionId) : (s.epilogue id).rxBuf = s.rxBuf := by cases id <;> rfl
@[simp] theorem epilogue_txq (s : State) (id : SessionId) : (s.epilogue id).txq = s.txq := by cases id <;> rfl
@[simp] theorem epilogue_rxq (s : State) (id : SessionId) : (s.epilogue id).rxq = s.rxq := by cases id <;> rfl
@[simp] theorem epilogue_txsh (s : State) (id : SessionId) : (s.epilogue id).txsh = s.txsh := by cases id <;> rfl
@[simp] theorem epilogue_rxovf (s : State) (id : SessionId) : (s.epilogue id).rxovf = s.rxovf := by cases id <;> rfl
@[simp] theorem epilogue_wire (s : State) (id : SessionId) : (s.epilogue id).wire = s.wire := by cases id <;> rfl
@[simp] theorem epilogue_responses (s : State) (id : SessionId) : (s.epilogue id).responses = s.responses := by cases id <;> rfl
@[simp] theorem epilogue_schedule (s : State) (id : SessionId) : (s.epilogue id).schedule = s.schedule := by cases id <;> rfl
@[simp] theorem epilogue_drawn (s : State) (id : SessionId) : (s.epilogue id).drawn = s.drawn := by cases id <;> rfl

/-! `openSession` -/
@[simp] theorem openSession_cfg (s : State) (id : SessionId) (n : Nat) : (s.openSession id n).cfg = s.cfg := by cases id <;> rfl
@[simp] theorem openSession_watch (s : State) (id : SessionId) (n : Nat) : (s.openSession id n).watch = s.watch := by cases id <;> rfl
@[simp] theorem openSession_tmoReload (s : State) (id : SessionId) (n : Nat) : (s.openSession id n).tmoReload = s.tmoReload := by cases id <;> rfl
@[simp] theorem openSession_cs (s : State) (id : SessionId) (n : Nat) : (s.openSession id n).cs = s.cs := by cases id <;> rfl
@[simp] theorem openSession_txBuf (s : State) (id : SessionId) (n : Nat) : (s.openSession id n).txBuf = s.txBuf := by cases id <;> rfl
@[simp] theorem openSession_rxBuf (s : State) (id : SessionId) (n : Nat) : (s.openSession id n).rxBuf = s.rxBuf := by cases id <;> rfl
@[simp] theorem openSession_txq (s : State) (id : SessionId) (n : Nat) : (s.openSession id n).txq = s.txq := by cases id <;> rfl
@[simp] theorem openSession_rxq (s : State) (id : SessionId) (n : Nat) : (s.openSession id n).rxq = s.rxq := by cases id <;> rfl
@[simp] theorem openSession_txsh (s : State) (id : SessionId) (n : Nat) : (s.openSession id n).txsh = s.txsh := by cases id <;> rfl
@[simp] theorem openSession_rxovf (s : State) (id : SessionId) (n : Nat) : (s.openSession id n).rxovf = s.rxovf := by cases id <;> rfl
@[simp] theorem openSession_wire (s : State) (id : SessionId) (n : Nat) : (s.openSession id n).wire = s.wire := by cases id <;> rfl
@[simp] theorem openSession_responses (s : State) (id : SessionId) (n : Nat) : (s.openSession id n).responses = s.responses := by cases id <;> rfl
@[simp] theorem openSession_schedule (s : State) (id : SessionId) (n : Nat) : (s.openSession id n).schedule = s.schedule := by cases id <;> rfl
@[simp] theorem openSession_drawn (s : State) (id : SessionId) (n : Nat) : (s.openSession id n).drawn = s.drawn := by cases id <;> rfl

/-! `setSelect` -/
@[simp] theorem setSelect_cfg (s : State) (c : Option Endpoint) : (s.setSelect c).cfg = s.cfg := rfl
@[simp] theorem setSelect_sT (s : State) (c : Option Endpoint) : (s.setSelect c).sT = s.sT := rfl
@[simp] theorem setSelect_sR (s : State) (c : Option Endpoint) : (s.setSelect c).sR = s.sR := rfl
@[simp] theorem setSelect_sX (s : State) (c : Option Endpoint) : (s.setSelect c).sX = s.sX := rfl
@[simp] theorem setSelect_watch (s : State) (c : Option Endpoint) : (s.setSelect c).watch = s.watch := rfl
@[simp] theorem setSelect_tmoReload (s : State) (c : Option Endpoint) : (s.setSelect c).tmoReload = s.tmoReload := rfl
@[simp] theorem setSelect_txBuf (s : State) (c : Option Endpoint) : (s.setSelect c).txBuf = s.txBuf := rfl
@[simp] theorem setSelect_rxBuf (s : State) (c : Option Endpoint) : (s.setSelect c).rxBuf = s.rxBuf := rfl
@[simp] theorem setSelect_txq (s : State) (c : Option Endpoint) : (s.setSelect c).txq = s.txq := rfl
@[simp] theorem setSelect_rxq (s : State) (c : Option Endpoint) : (s.setSelect c).rxq = s.rxq := rfl
@[simp] theorem setSelect_txsh (s : State) (c : Option Endpoint) : (s.setSelect c).txsh = s.txsh := rfl
@[simp] theorem setSelect_rxovf (s : State) (c : Option Endpoint) : (s.setSelect c).rxovf = s.rxovf := rfl
@[simp] theorem setSelect_wire (s : State) (c : Option Endpoint) : (s.setSelect c).wire = s.wire := rfl
@[simp] theorem setSelect_responses (s : State) (c : Option Endpoint) : (s.setSelect c).responses = s.responses := rfl
@[simp] theorem setSelect_schedule (s : State) (c : Option Endpoint) : (s.setSelect c).schedule = s.schedule := rfl
@[simp] theorem setSelect_drawn (s : State) (c : Option Endpoint) : (s.setSelect c).drawn = s.drawn := rfl

/-! `setReload` -/
@[simp] theorem setReload_cfg (s : State) (r : TmoReload) : (s.setReload r).cfg = s.cfg := rfl
@[simp] theorem setReload_sT (s : State) (r : TmoReload) : (s.setReload r).sT = s.sT := rfl
@[simp] theorem setReload_sR (s : State) (r : TmoReload) : (s.setReload r).sR = s.sR := rfl
@[simp] theorem setReload_sX (s : State) (r : TmoReload) : (s.setReload r).sX = s.sX := rfl
@[simp] theorem setReload_watch (s : State) (r : TmoReload) : (s.setReload r).watch = s.watch := rfl
@[simp] theorem setReload_cs (s : State) (r : TmoReload) : (s.setReload r).cs = s.cs := rfl
@[simp] theorem setReload_txBuf (s : State) (r : TmoReload) : (s.setReload r).txBuf = s.txBuf := rfl
@[simp] theorem setReload_rxBuf (s : State) (r : TmoReload) : (s.setReload r).rxBuf = s.rxBuf := rfl
@[simp] theorem setReload_txq (s : State) (r : TmoReload) : (s.setReload r).txq = s.txq := rfl
@[simp] theorem setReload_rxq (s : State) (r : TmoReload) : (s.setReload r).rxq = s.rxq := rfl
@[simp] theorem setReload_txsh (s : State) (r : TmoReload) : (s.setReload r).txsh = s.txsh := rfl
@[simp] theorem setReload_rxovf (s : State) (r : TmoReload) : (s.setReload r).rxovf = s.rxovf := rfl
@[simp] theorem setReload_wire (s : State) (r : TmoReload) : (s.setReload r).wire = s.wire := rfl
@[simp] theorem setReload_responses (s : State) (r : TmoReload) : (s.setReload r).responses = s.responses := rfl
@[simp] theorem setReload_schedule (s : State) (r : TmoReload) : (s.setReload r).schedule = s.schedule := rfl
@[simp] theorem setReload_drawn (s : State) (r : TmoReload) : (s.setReload r).drawn = s.drawn := rfl

/-! `setWatch` -/
@[simp] theorem setWatch_cfg (s : State) (w : RxWatch) : (s.setWatch w).cfg = s.cfg := rfl
@[simp] theorem setWatch_sT (s : State) (w : RxWatch) : (s.setWatch w).sT = s.sT := rfl
@[simp] theorem setWatch_sR (s : State) (w : RxWatch) : (s.setWatch w).sR = s.sR := rfl
@[simp] theorem setWatch_sX (s : State) (w : RxWatch) : (s.setWatch w).sX = s.sX := rfl
@[simp] theorem setWatch_tmoReload (s : State) (w : RxWatch) : (s.setWatch w).tmoReload = s.tmoReload := rfl
@[simp] theorem setWatch_cs (s : State) (w : RxWatch) : (s.setWatch w).cs = s.cs := rfl
@[simp] theorem setWatch_txBuf (s : State) (w : RxWatch) : (s.setWatch w).txBuf = s.txBuf := rfl
@[simp] theorem setWatch_rxBuf (s : State) (w : RxWatch) : (s.setWatch w).rxBuf = s.rxBuf := rfl
@[simp] theorem setWatch_txq (s : State) (w : RxWatch) : (s.setWatch w).txq = s.txq := rfl
@[simp] theorem setWatch_rxq (s : State) (w : RxWatch) : (s.setWatch w).rxq = s.rxq := rfl
@[simp] theorem setWatch_txsh (s : State) (w : RxWatch) : (s.setWatch w).txsh = s.txsh := rfl
@[simp] theorem setWatch_rxovf (s : State) (w : RxWatch) : (s.setWatch w).rxovf = s.rxovf := rfl
@[simp] theorem setWatch_wire (s : State) (w : RxWatch) : (s.setWatch w).wire = s.wire := rfl
@[simp] theorem setWatch_responses (s : State) (w : RxWatch) : (s.setWatch w).responses = s.responses := rfl
@[simp] theorem setWatch_schedule (s : State) (w : RxWatch) : (s.setWatch w).schedule = s.schedule := rfl
@[simp] theorem setWatch_drawn (s : State) (w : RxWatch) : (s.setWatch w).drawn = s.drawn := rfl

/-! `setOverflow` -/
@[simp] theorem setOverflow_cfg (s : State) (b : Bool) : (s.setOverflow b).cfg = s.cfg := rfl
@[simp] theorem setOverflow_sT (s : State) (b : Bool) : (s.setOverflow b).sT = s.sT := rfl
@[simp] theorem setOverflow_sR (s : State) (b : Bool) : (s.setOverflow b).sR = s.sR := rfl
@[simp] theorem setOverflow_sX (s : State) (b : Bool) : (s.setOverflow b).sX = s.sX := rfl
@[simp] theorem setOverflow_watch (s : State) (b : Bool) : (s.setOverflow b).watch = s.watch := rfl
@[simp] theorem setOverflow_tmoReload (s : State) (b : Bool) : (s.setOverflow b).tmoReload = s.tmoReload := rfl
@[simp] theorem setOverflow_cs (s : State) (b : Bool) : (s.setOverflow b).cs = s.cs := rfl
@[simp] theorem setOverflow_txBuf (s : State) (b : Bool) : (s.setOverflow b).txBuf = s.txBuf := rfl
@[simp] theorem setOverflow_rxBuf (s : State) (b : Bool) : (s.setOverflow b).rxBuf = s.rxBuf := rfl
@[simp] theorem setOverflow_txq (s : State) (b : Bool) : (s.setOverflow b).txq = s.txq := rfl
@[simp] theorem setOverflow_rxq (s : State) (b : Bool) : (s.setOverflow b).rxq = s.rxq := rfl
@[simp] theorem setOverflow_txsh (s : State) (b : Bool) : (s.setOverflow b).txsh = s.txsh := rfl
@[simp] theorem setOverflow_wire (s : State) (b : Bool) : (s.setOverflow b).wire = s.wire := rfl
@[simp] theorem setOverflow_responses (s : State) (b : Bool) : (s.setOverflow b).responses = s.responses := rfl
@[simp] theorem setOverflow_schedule (s : State) (b : Bool) : (s.setOverflow b).schedule = s.schedule := rfl
@[simp] theorem setOverflow_drawn (s : State) (b : Bool) : (s.setOverflow b).drawn = s.drawn := rfl

/-! `setShift` -/
@[simp] theorem setShift_cfg (s : State) (b : Option Byte) : (s.setShift b).cfg = s.cfg := rfl
@[simp] theorem setShift_sT (s : State) (b : Option Byte) : (s.setShift b).sT = s.sT := rfl
@[simp] theorem setShift_sR (s : State) (b : Option Byte) : (s.setShift b).sR = s.sR := rfl
@[simp] theorem setShift_sX (s : State) (b : Option Byte) : (s.setShift b).sX = s.sX := rfl
@[simp] theorem setShift_watch (s : State) (b : Option Byte) : (s.setShift b).watch = s.watch := rfl
@[simp] theorem setShift_tmoReload (s : State) (b : Option Byte) : (s.setShift b).tmoReload = s.tmoReload := rfl
@[simp] theorem setShift_cs (s : State) (b : Option Byte) : (s.setShift b).cs = s.cs := rfl
@[simp] theorem setShift_txBuf (s : State) (b : Option Byte) : (s.setShift b).txBuf = s.txBuf := rfl
@[simp] theorem setShift_rxBuf (s : State) (b : Option Byte) : (s.setShift b).rxBuf = s.rxBuf := rfl
@[simp] theorem setShift_txq (s : State) (b : Option Byte) : (s.setShift b).txq = s.txq := rfl
@[simp] theorem setShift_rxq (s : State) (b : Option Byte) : (s.setShift b).rxq = s.rxq := rfl
@[simp] theorem setShift_rxovf (s : State) (b : Option Byte) : (s.setShift b).rxovf = s.rxovf := rfl
@[simp] theorem setShift_wire (s : State) (b : Option Byte) : (s.setShift b).wire = s.wire := rfl
@[simp] theorem setShift_responses (s : State) (b : Option Byte) : (s.setShift b).responses = s.responses := rfl
@[simp] theorem setShift_schedule (s : State) (b : Option Byte) : (s.setShift b).schedule = s.schedule := rfl
@[simp] theorem setShift_drawn (s : State) (b : Option Byte) : (s.setShift b).drawn = s.drawn := rfl

/-! `emit` -/
@[simp] theorem emit_cfg (s : State) (w : WireEntry) : (s.emit w).cfg = s.cfg := rfl
@[simp] theorem emit_sT (s : State) (w : WireEntry) : (s.emit w).sT = s.sT := rfl
@[simp] theorem emit_sR (s : State) (w : WireEntry) : (s.emit w).sR = s.sR := rfl
@[simp] theorem emit_sX (s : State) (w : WireEntry) : (s.emit w).sX = s.sX := rfl
@[simp] theorem emit_watch (s : State) (w : WireEntry) : (s.emit w).watch = s.watch := rfl
@[simp] theorem emit_tmoReload (s : State) (w : WireEntry) : (s.emit w).tmoReload = s.tmoReload := rfl
@[simp] theorem emit_cs (s : State) (w : WireEntry) : (s.emit w).cs = s.cs := rfl
@[simp] theorem emit_txBuf (s : State) (w : WireEntry) : (s.emit w).txBuf = s.txBuf := rfl
@[simp] theorem emit_rxBuf (s : State) (w : WireEntry) : (s.emit w).rxBuf = s.rxBuf := rfl
@[simp] theorem emit_txq (s : State) (w : WireEntry) : (s.emit w).txq = s.txq := rfl
@[simp] theorem emit_rxq (s : State) (w : WireEntry) : (s.emit w).rxq = s.rxq := rfl
@[simp] theorem emit_txsh (s : State) (w : WireEntry) : (s.emit w).txsh = s.txsh := rfl
@[simp] theorem emit_rxovf (s : State) (w : WireEntry) : (s.emit w).rxovf = s.rxovf := rfl
@[simp] theorem emit_responses (s : State) (w : WireEntry) : (s.emit w).responses = s.responses := rfl
@[simp] theorem emit_schedule (s : State) (w : WireEntry) : (s.emit w).schedule = s.schedule := rfl
@[simp] theorem emit_drawn (s : State) (w : WireEntry) : (s.emit w).drawn = s.drawn := rfl

/-! `loadWatch` -/
@[simp] theorem loadWatch_cfg (s : State) : (s.loadWatch).cfg = s.cfg := rfl
@[simp] theorem loadWatch_sT (s : State) : (s.loadWatch).sT = s.sT := rfl
@[simp] theorem loadWatch_sR (s : State) : (s.loadWatch).sR = s.sR := rfl
@[simp] theorem loadWatch_sX (s : State) : (s.loadWatch).sX = s.sX := rfl
@[simp] theorem loadWatch_tmoReload (s : State) : (s.loadWatch).tmoReload = s.tmoReload := rfl
@[simp] theorem loadWatch_cs (s : State) : (s.loadWatch).cs = s.cs := rfl
@[simp] theorem loadWatch_txBuf (s : State) : (s.loadWatch).txBuf = s.txBuf := rfl
@[simp] theorem loadWatch_rxBuf (s : State) : (s.loadWatch).rxBuf = s.rxBuf := rfl
@[simp] theorem loadWatch_txq (s : State) : (s.loadWatch).txq = s.txq := rfl
@[simp] theorem loadWatch_rxq (s : State) : (s.loadWatch).rxq = s.rxq := rfl
@[simp] theorem loadWatch_txsh (s : State) : (s.loadWatch).txsh = s.txsh := rfl
@[simp] theorem loadWatch_rxovf (s : State) : (s.loadWatch).rxovf = s.rxovf := rfl
@[simp] theorem loadWatch_wire (s : State) : (s.loadWatch).wire = s.wire := rfl
@[simp] theorem loadWatch_responses (s : State) : (s.loadWatch).responses = s.responses := rfl
@[simp] theorem loadWatch_schedule (s : State) : (s.loadWatch).schedule = s.schedule := rfl
@[simp] theorem loadWatch_drawn (s : State) : (s.loadWatch).drawn = s.drawn := rfl

/-! `selectOptional` -/
@[simp] theorem selectOptional_cfg (s : State) (ep : Option Endpoint) : (s.selectOptional ep).cfg = s.cfg := by cases ep <;> rfl
@[simp] theorem selectOptional_sT (s : State) (ep : Option Endpoint) : (s.selectOptional ep).sT = s.sT := by cases ep <;> rfl
@[simp] theorem selectOptional_sR (s : State) (ep : Option Endpoint) : (s.selectOptional ep).sR = s.sR := by cases ep <;> rfl
@[simp] theorem selectOptional_sX (s : State) (ep : Option Endpoint) : (s.selectOptional ep).sX = s.sX := by cases ep <;> rfl
@[simp] theorem selectOptional_watch (s : State) (ep : Option Endpoint) : (s.selectOptional ep).watch = s.watch := by cases ep <;> rfl
@[simp] theorem selectOptional_tmoReload (s : State) (ep : Option Endpoint) : (s.selectOptional ep).tmoReload = s.tmoReload := by cases ep <;> rfl
@[simp] theorem selectOptional_txBuf (s : State) (ep : Option Endpoint) : (s.selectOptional ep).txBuf = s.txBuf := by cases ep <;> rfl
@[simp] theorem selectOptional_rxBuf (s : State) (ep : Option Endpoint) : (s.selectOptional ep).rxBuf = s.rxBuf := by cases ep <;> rfl
@[simp] theorem selectOptional_txq (s : State) (ep : Option Endpoint) : (s.selectOptional ep).txq = s.txq := by cases ep <;> rfl
@[simp] theorem selectOptional_rxq (s : State) (ep : Option Endpoint) : (s.selectOptional ep).rxq = s.rxq := by cases ep <;> rfl
@[simp] theorem selectOptional_txsh (s : State) (ep : Option Endpoint) : (s.selectOptional ep).txsh = s.txsh := by cases ep <;> rfl
@[simp] theorem selectOptional_rxovf (s : State) (ep : Option Endpoint) : (s.selectOptional ep).rxovf = s.rxovf := by cases ep <;> rfl
@[simp] theorem selectOptional_wire (s : State) (ep : Option Endpoint) : (s.selectOptional ep).wire = s.wire := by cases ep <;> rfl
@[simp] theorem selectOptional_responses (s : State) (ep : Option Endpoint) : (s.selectOptional ep).responses = s.responses := by cases ep <;> rfl
@[simp] theorem selectOptional_schedule (s : State) (ep : Option Endpoint) : (s.selectOptional ep).schedule = s.schedule := by cases ep <;> rfl
@[simp] theorem selectOptional_drawn (s : State) (ep : Option Endpoint) : (s.selectOptional ep).drawn = s.drawn := by cases ep <;> rfl

/-! `recordSnapshot` -/
@[simp] theorem recordSnapshot_cfg (s : State) : (s.recordSnapshot).cfg = s.cfg := rfl
@[simp] theorem recordSnapshot_sT (s : State) : (s.recordSnapshot).sT = s.sT := rfl
@[simp] theorem recordSnapshot_sR (s : State) : (s.recordSnapshot).sR = s.sR := rfl
@[simp] theorem recordSnapshot_sX (s : State) : (s.recordSnapshot).sX = s.sX := rfl
@[simp] theorem recordSnapshot_tmoReload (s : State) : (s.recordSnapshot).tmoReload = s.tmoReload := rfl
@[simp] theorem recordSnapshot_cs (s : State) : (s.recordSnapshot).cs = s.cs := rfl
@[simp] theorem recordSnapshot_txBuf (s : State) : (s.recordSnapshot).txBuf = s.txBuf := rfl
@[simp] theorem recordSnapshot_rxBuf (s : State) : (s.recordSnapshot).rxBuf = s.rxBuf := rfl
@[simp] theorem recordSnapshot_txq (s : State) : (s.recordSnapshot).txq = s.txq := rfl
@[simp] theorem recordSnapshot_rxq (s : State) : (s.recordSnapshot).rxq = s.rxq := rfl
@[simp] theorem recordSnapshot_txsh (s : State) : (s.recordSnapshot).txsh = s.txsh := rfl
@[simp] theorem recordSnapshot_rxovf (s : State) : (s.recordSnapshot).rxovf = s.rxovf := rfl
@[simp] theorem recordSnapshot_wire (s : State) : (s.recordSnapshot).wire = s.wire := rfl
@[simp] theorem recordSnapshot_responses (s : State) : (s.recordSnapshot).responses = s.responses := rfl
@[simp] theorem recordSnapshot_schedule (s : State) : (s.recordSnapshot).schedule = s.schedule := rfl
@[simp] theorem recordSnapshot_drawn (s : State) : (s.recordSnapshot).drawn = s.drawn := rfl

/-! `endReceive` -/
@[simp] theorem endReceive_cfg (s : State) (st : Status) : (s.endReceive st).cfg = s.cfg := rfl
@[simp] theorem endReceive_sT (s : State) (st : Status) : (s.endReceive st).sT = s.sT := rfl
@[simp] theorem endReceive_sX (s : State) (st : Status) : (s.endReceive st).sX = s.sX := rfl
@[simp] theorem endReceive_watch (s : State) (st : Status) : (s.endReceive st).watch = s.watch := rfl
@[simp] theorem endReceive_tmoReload (s : State) (st : Status) : (s.endReceive st).tmoReload = s.tmoReload := rfl
@[simp] theorem endReceive_cs (s : State) (st : Status) : (s.endReceive st).cs = s.cs := rfl
@[simp] theorem endReceive_txBuf (s : State) (st : Status) : (s.endReceive st).txBuf = s.txBuf := rfl
@[simp] theorem endReceive_rxBuf (s : State) (st : Status) : (s.endReceive st).rxBuf = s.rxBuf := rfl
@[simp] theorem endReceive_txq (s : State) (st : Status) : (s.endReceive st).txq = s.txq := rfl
@[simp] theorem endReceive_rxq (s : State) (st : Status) : (s.endReceive st).rxq = s.rxq := rfl
@[simp] theorem endReceive_txsh (s : State) (st : Status) : (s.endReceive st).txsh = s.txsh := rfl
@[simp] theorem endReceive_rxovf (s : State) (st : Status) : (s.endReceive st).rxovf = s.rxovf := rfl
@[simp] theorem endReceive_wire (s : State) (st : Status) : (s.endReceive st).wire = s.wire := rfl
@[simp] theorem endReceive_responses (s : State) (st : Status) : (s.endReceive st).responses = s.responses := rfl
@[simp] theorem endReceive_schedule (s : State) (st : Status) : (s.endReceive st).schedule = s.schedule := rfl
@[simp] theorem endReceive_drawn (s : State) (st : Status) : (s.endReceive st).drawn = s.drawn := rfl

/-! `setBudget` -/
@[simp] theorem setBudget_cfg (s : State) (t : Int) : (s.setBudget t).cfg = s.cfg := rfl
@[simp] theorem setBudget_sT (s : State) (t : Int) : (s.setBudget t).sT = s.sT := rfl
@[simp] theorem setBudget_sR (s : State) (t : Int) : (s.setBudget t).sR = s.sR := rfl
@[simp] theorem setBudget_sX (s : State) (t : Int) : (s.setBudget t).sX = s.sX := rfl
@[simp] theorem setBudget_tmoReload (s : State) (t : Int) : (s.setBudget t).tmoReload = s.tmoReload := rfl
@[simp] theorem setBudget_cs (s : State) (t : Int) : (s.setBudget t).cs = s.cs := rfl
@[simp] theorem setBudget_txBuf (s : State) (t : Int) : (s.setBudget t).txBuf = s.txBuf := rfl
@[simp] theorem setBudget_rxBuf (s : State) (t : Int) : (s.setBudget t).rxBuf = s.rxBuf := rfl
@[simp] theorem setBudget_txq (s : State) (t : Int) : (s.setBudget t).txq = s.txq := rfl
@[simp] theorem setBudget_rxq (s : State) (t : Int) : (s.setBudget t).rxq = s.rxq := rfl
@[simp] theorem setBudget_txsh (s : State) (t : Int) : (s.setBudget t).txsh = s.txsh := rfl
@[simp] theorem setBudget_rxovf (s : State) (t : Int) : (s.setBudget t).rxovf = s.rxovf := rfl
@[simp] theorem setBudget_wire (s : State) (t : Int) : (s.setBudget t).wire = s.wire := rfl
@[simp] theorem setBudget_responses (s : State) (t : Int) : (s.setBudget t).responses = s.responses := rfl
@[simp] theorem setBudget_schedule (s : State) (t : Int) : (s.setBudget t).schedule = s.schedule := rfl
@[simp] theorem setBudget_drawn (s : State) (t : Int) : (s.setBudget t).drawn = s.drawn := rfl

/-! A session read through an update of something else -/
@[simp] theorem setBuf_session (s : State) (B : Buf) (m : Memory) (id : SessionId) : (s.setBuf B m).session id = s.session id := by cases id <;> simp [State.session]
@[simp] theorem poke_session (s : State) (B : Buf) (i : Nat) (v : Byte) (id : SessionId) : (s.poke B i v).session id = s.session id := by cases id <;> simp [State.session]
@[simp] theorem setFifo_session (s : State) (q : Fifo) (l : List Byte) (id : SessionId) : (s.setFifo q l).session id = s.session id := by cases id <;> simp [State.session]
@[simp] theorem respond_session (s : State) (rc : ResultCode) (p : BitVec 28) (id : SessionId) : (s.respond rc p).session id = s.session id := by cases id <;> simp [State.session]
@[simp] theorem setSelect_session (s : State) (c : Option Endpoint) (id : SessionId) : (s.setSelect c).session id = s.session id := by cases id <;> simp [State.session]
@[simp] theorem setReload_session (s : State) (r : TmoReload) (id : SessionId) : (s.setReload r).session id = s.session id := by cases id <;> simp [State.session]
@[simp] theorem setWatch_session (s : State) (w : RxWatch) (id : SessionId) : (s.setWatch w).session id = s.session id := by cases id <;> simp [State.session]
@[simp] theorem setOverflow_session (s : State) (b : Bool) (id : SessionId) : (s.setOverflow b).session id = s.session id := by cases id <;> simp [State.session]
@[simp] theorem setShift_session (s : State) (b : Option Byte) (id : SessionId) : (s.setShift b).session id = s.session id := by cases id <;> simp [State.session]
@[simp] theorem emit_session (s : State) (w : WireEntry) (id : SessionId) : (s.emit w).session id = s.session id := by cases id <;> simp [State.session]
@[simp] theorem loadWatch_session (s : State) (id : SessionId) : (s.loadWatch).session id = s.session id := by cases id <;> simp [State.session]
@[simp] theorem selectOptional_session (s : State) (ep : Option Endpoint) (id : SessionId) : (s.selectOptional ep).session id = s.session id := by cases id <;> simp [State.session]
@[simp] theorem recordSnapshot_session (s : State) (id : SessionId) : (s.recordSnapshot).session id = s.session id := by cases id <;> simp [State.session]
@[simp] theorem setBudget_session (s : State) (t : Int) (id : SessionId) : (s.setBudget t).session id = s.session id := by cases id <;> simp [State.session]
/-! A buffer byte read through an update of something else than its buffer -/
@[simp] theorem peek_setSession (s : State) (id : SessionId) (f : Session) (B : Buf) (i : Nat) :
    (s.setSession id f).peek B i = s.peek B i := by cases id <;> cases B <;> rfl
@[simp] theorem peek_setFifo (s : State) (q : Fifo) (l : List Byte) (B : Buf) (i : Nat) :
    (s.setFifo q l).peek B i = s.peek B i := by cases q <;> cases B <;> rfl
@[simp] theorem peek_respond (s : State) (rc : ResultCode) (p : BitVec 28) (B : Buf) (i : Nat) :
    (s.respond rc p).peek B i = s.peek B i := by cases B <;> rfl
@[simp] theorem peek_setOverflow (s : State) (b : Bool) (B : Buf) (i : Nat) :
    (s.setOverflow b).peek B i = s.peek B i := by cases B <;> rfl
@[simp] theorem peek_setWatch (s : State) (w : RxWatch) (B : Buf) (i : Nat) :
    (s.setWatch w).peek B i = s.peek B i := by cases B <;> rfl
@[simp] theorem peek_setSelect (s : State) (c : Option Endpoint) (B : Buf) (i : Nat) :
    (s.setSelect c).peek B i = s.peek B i := by cases B <;> rfl
@[simp] theorem peek_setShift (s : State) (b : Option Byte) (B : Buf) (i : Nat) :
    (s.setShift b).peek B i = s.peek B i := by cases B <;> rfl
@[simp] theorem peek_emit (s : State) (w : WireEntry) (B : Buf) (i : Nat) :
    (s.emit w).peek B i = s.peek B i := by cases B <;> rfl
@[simp] theorem peek_openSession (s : State) (id : SessionId) (n : Nat) (B : Buf) (i : Nat) :
    (s.openSession id n).peek B i = s.peek B i := by simp [State.openSession]
@[simp] theorem peek_advance (s : State) (id : SessionId) (n : Nat) (B : Buf) (i : Nat) :
    (s.advance id n).peek B i = s.peek B i := by simp [State.advance]
@[simp] theorem peek_loadWatch (s : State) (B : Buf) (i : Nat) : s.loadWatch.peek B i = s.peek B i := by
  simp [State.loadWatch]
@[simp] theorem peek_selectOptional (s : State) (ep : Option Endpoint) (B : Buf) (i : Nat) :
    (s.selectOptional ep).peek B i = s.peek B i := by cases ep <;> simp [State.selectOptional]
@[simp] theorem peek_setBuf_other (s : State) (m : Memory) (i : Nat) :
    (s.setBuf .rx m).peek .tx i = s.peek .tx i := rfl

/-! What each update writes -/
@[simp] theorem setSession_t_sT (s : State) (f : Session) : (s.setSession .t f).sT = f := rfl
@[simp] theorem setSession_t_sR (s : State) (f : Session) : (s.setSession .t f).sR = s.sR := rfl
@[simp] theorem setSession_t_sX (s : State) (f : Session) : (s.setSession .t f).sX = s.sX := rfl
@[simp] theorem setSession_r_sT (s : State) (f : Session) : (s.setSession .r f).sT = s.sT := rfl
@[simp] theorem setSession_r_sR (s : State) (f : Session) : (s.setSession .r f).sR = f := rfl
@[simp] theorem setSession_r_sX (s : State) (f : Session) : (s.setSession .r f).sX = s.sX := rfl
@[simp] theorem setSession_x_sT (s : State) (f : Session) : (s.setSession .x f).sT = s.sT := rfl
@[simp] theorem setSession_x_sR (s : State) (f : Session) : (s.setSession .x f).sR = s.sR := rfl
@[simp] theorem setSession_x_sX (s : State) (f : Session) : (s.setSession .x f).sX = f := rfl
@[simp] theorem session_t (s : State) : s.session .t = s.sT := rfl
@[simp] theorem session_r (s : State) : s.session .r = s.sR := rfl
@[simp] theorem session_x (s : State) : s.session .x = s.sX := rfl
@[simp] theorem session_setSession_self (s : State) (id : SessionId) (f : Session) :
    (s.setSession id f).session id = f := by cases id <;> rfl
@[simp] theorem session_setSession_other (s : State) (id id' : SessionId) (f : Session) (h : id' ≠ id) :
    (s.setSession id f).session id' = s.session id' := by cases id <;> cases id' <;> first | rfl | exact absurd rfl h
@[simp] theorem setSession_setSession (s : State) (id : SessionId) (f g : Session) :
    (s.setSession id f).setSession id g = s.setSession id g := by cases id <;> rfl
@[simp] theorem setFifo_tx_txq (s : State) (l : List Byte) : (s.setFifo .tx l).txq = l := rfl
@[simp] theorem setFifo_tx_rxq (s : State) (l : List Byte) : (s.setFifo .tx l).rxq = s.rxq := rfl
@[simp] theorem setFifo_rx_txq (s : State) (l : List Byte) : (s.setFifo .rx l).txq = s.txq := rfl
@[simp] theorem setFifo_rx_rxq (s : State) (l : List Byte) : (s.setFifo .rx l).rxq = l := rfl
@[simp] theorem fifo_tx (s : State) : s.fifo .tx = s.txq := rfl
@[simp] theorem fifo_rx (s : State) : s.fifo .rx = s.rxq := rfl
@[simp] theorem fill_tx (s : State) : s.fill .tx = s.txq.length := rfl
@[simp] theorem fill_rx (s : State) : s.fill .rx = s.rxq.length := rfl
@[simp] theorem buf_tx (s : State) : s.buf .tx = s.txBuf := rfl
@[simp] theorem buf_rx (s : State) : s.buf .rx = s.rxBuf := rfl
@[simp] theorem bufSize_tx (s : State) : s.bufSize .tx = s.cfg.nTx := rfl
@[simp] theorem bufSize_rx (s : State) : s.bufSize .rx = s.cfg.nRx := rfl
@[simp] theorem capacity_t (s : State) : s.capacity .t = s.cfg.nTx := rfl
@[simp] theorem capacity_r (s : State) : s.capacity .r = s.cfg.nRx := rfl
@[simp] theorem capacity_x (s : State) : s.capacity .x = min s.cfg.nTx s.cfg.nRx := rfl
@[simp] theorem setBuf_tx_txBuf (s : State) (m : Memory) : (s.setBuf .tx m).txBuf = m := rfl
@[simp] theorem setBuf_tx_rxBuf (s : State) (m : Memory) : (s.setBuf .tx m).rxBuf = s.rxBuf := rfl
@[simp] theorem setBuf_rx_txBuf (s : State) (m : Memory) : (s.setBuf .rx m).txBuf = s.txBuf := rfl
@[simp] theorem setBuf_rx_rxBuf (s : State) (m : Memory) : (s.setBuf .rx m).rxBuf = m := rfl
@[simp] theorem poke_tx_txBuf (s : State) (i : Nat) (v : Byte) :
    (s.poke .tx i v).txBuf = Memory.insert s.txBuf i v := rfl
@[simp] theorem poke_tx_rxBuf (s : State) (i : Nat) (v : Byte) : (s.poke .tx i v).rxBuf = s.rxBuf := rfl
@[simp] theorem poke_rx_txBuf (s : State) (i : Nat) (v : Byte) : (s.poke .rx i v).txBuf = s.txBuf := rfl
@[simp] theorem poke_rx_rxBuf (s : State) (i : Nat) (v : Byte) :
    (s.poke .rx i v).rxBuf = Memory.insert s.rxBuf i v := rfl
@[simp] theorem respond_responses (s : State) (rc : ResultCode) (p : BitVec 28) :
    (s.respond rc p).responses = s.responses ++ [responseWord rc p] := rfl
@[simp] theorem loadWatch_watch (s : State) :
    s.loadWatch.watch = { tmo := s.tmoReload.budget, pcur := 0, pfill := 0, pvalid := false } := rfl
@[simp] theorem recordSnapshot_watch (s : State) :
    s.recordSnapshot.watch = { s.watch with pcur := s.sR.cur, pfill := s.rxq.length, pvalid := true } := rfl
@[simp] theorem endReceive_sR (s : State) (st : Status) :
    (s.endReceive st).sR = { s.sR with st := st, ie := false } := rfl
@[simp] theorem setBudget_watch (s : State) (t : Int) :
    (s.setBudget t).watch = { s.watch with tmo := some t } := rfl
@[simp] theorem setSelect_self_cs (s : State) (c : Option Endpoint) : (s.setSelect c).cs = c := rfl
@[simp] theorem setReload_self_tmoReload (s : State) (r : TmoReload) : (s.setReload r).tmoReload = r := rfl
@[simp] theorem setWatch_self_watch (s : State) (w : RxWatch) : (s.setWatch w).watch = w := rfl
@[simp] theorem setOverflow_self_rxovf (s : State) (b : Bool) : (s.setOverflow b).rxovf = b := rfl
@[simp] theorem setShift_self_txsh (s : State) (b : Option Byte) : (s.setShift b).txsh = b := rfl
@[simp] theorem emit_self_wire (s : State) (w : WireEntry) : (s.emit w).wire = s.wire ++ [w] := rfl
@[simp] theorem moved_st (f : Session) (n : Nat) : (f.moved n).st = f.st := rfl
@[simp] theorem moved_len (f : Session) (n : Nat) : (f.moved n).len = f.len := rfl
@[simp] theorem moved_cur (f : Session) (n : Nat) : (f.moved n).cur = f.cur + n := rfl
@[simp] theorem moved_thr (f : Session) (n : Nat) : (f.moved n).thr = f.thr := rfl
@[simp] theorem moved_ie (f : Session) (n : Nat) : (f.moved n).ie = f.ie := rfl
@[simp] theorem opened_st (f : Session) (n : Nat) : (f.opened n).st = .inProgress := rfl
@[simp] theorem opened_len (f : Session) (n : Nat) : (f.opened n).len = n := rfl
@[simp] theorem opened_cur (f : Session) (n : Nat) : (f.opened n).cur = 0 := rfl
@[simp] theorem opened_thr (f : Session) (n : Nat) : (f.opened n).thr = f.thr := rfl
@[simp] theorem opened_ie (f : Session) (n : Nat) : (f.opened n).ie = f.ie := rfl
@[simp] theorem epilogue_len (f : Session) (cap : Nat) : (f.epilogue cap).len = f.len := rfl
@[simp] theorem epilogue_cur (f : Session) (cap : Nat) : (f.epilogue cap).cur = f.cur := rfl
@[simp] theorem epilogue_thr (f : Session) (cap : Nat) : (f.epilogue cap).thr = min (f.len - f.cur) cap := rfl
@[simp] theorem epilogue_st (f : Session) (cap : Nat) :
    (f.epilogue cap).st = if f.cur = f.len then .finished else f.st := rfl
@[simp] theorem epilogue_ie (f : Session) (cap : Nat) :
    (f.epilogue cap).ie = decide ((if f.cur = f.len then Status.finished else f.st) = .inProgress) := rfl
@[simp] theorem openSession_session (s : State) (id : SessionId) (n : Nat) :
    (s.openSession id n).session id = (s.session id).opened n := by cases id <;> rfl
@[simp] theorem selectOptional_none (s : State) : s.selectOptional none = s := rfl
@[simp] theorem selectOptional_some_cs (s : State) (e : Endpoint) : (s.selectOptional (some e)).cs = some e := rfl

/-- A buffer is read through its own cells alone. -/
theorem peek_congr (s t : State) (B : Buf) (i : Nat) (h : t.buf B = s.buf B) : t.peek B i = s.peek B i := by
  simp [State.peek, h]

/-- The refused command of R74 writes the response and nothing else. -/
theorem rejected_eq (s : State) : s.rejected = { s with responses := s.responses ++ [0x10000000#32] } := rfl

/-- The ILLEGAL command of R74 writes the response and nothing else. -/
theorem illegal_eq (s : State) : s.illegal = { s with responses := s.responses ++ [0x20000000#32] } := rfl

/-- The answer OK with payload 0 (R74). -/
theorem respond_ok_zero (s : State) :
    s.respond .ok 0 = { s with responses := s.responses ++ [0x00000000#32] } := rfl

/-- The next agent step, where the schedule lists one. -/
theorem takeAgentStep_cons (s : State) (a : AgentStep) (rest : List AgentStep) (h : s.schedule = a :: rest) :
    s.takeAgentStep = (a, { s with schedule := rest }) := by
  simp [State.takeAgentStep, h]

/-- The next agent step, where the schedule lists none. -/
theorem takeAgentStep_nil (s : State) (h : s.schedule = []) :
    s.takeAgentStep = (Config.nextAgentStep s.drawn, { s with drawn := s.drawn + 1 }) := by
  simp [State.takeAgentStep, h]

end Sys2Proof.Machine
end

