-- ==== Sys2Proof/Laws/Memory.lean ====
section
/-! SUPPORT. The laws of the software buffers: read after write, and that every operation keeps the canonical form. -/

namespace Sys2Proof.Machine

theorem lookup_insert (m : Memory) (i k : Nat) (v : Byte) :
    Memory.lookup (Memory.insert m i v) k = if k = i then some v else Memory.lookup m k := by
  induction m with
  | nil => simp [Memory.insert, Memory.lookup]
  | cons c m ih =>
    obtain ⟨a, b⟩ := c
    unfold Memory.insert
    split
    · rfl
    · split
      · subst a
        by_cases h : k = i <;> simp [Memory.lookup, h]
      · next h =>
        by_cases hk : k = a
        · subst hk
          simp [Memory.lookup, Ne.symm h]
        · simp [Memory.lookup, hk, ih]

theorem mem_insert (m : Memory) (i : Nat) (v : Byte) (c : Host.Cell) (h : c ∈ Memory.insert m i v) :
    c = (i, v) ∨ c ∈ m := by
  induction m with
  | nil => simpa [Memory.insert] using h
  | cons d m ih =>
    obtain ⟨a, b⟩ := d
    unfold Memory.insert at h
    split at h
    · simpa using h
    · split at h
      · rcases List.mem_cons.1 h with h | h
        · exact .inl h
        · exact .inr (List.mem_cons_of_mem _ h)
      · rcases List.mem_cons.1 h with h | h
        · exact .inr (h ▸ List.mem_cons_self)
        · exact (ih h).imp_right (List.mem_cons_of_mem _)

/-- A write inside the buffer keeps the canonical form. -/
theorem insert_wf (size : Nat) (m : Memory) (i : Nat) (v : Byte) (hm : Memory.wf size m) (hi : i < size) :
    Memory.wf size (Memory.insert m i v) := by
  refine ⟨?_, fun c hc => ?_⟩
  · have hp := hm.1
    clear hm
    induction m with
    | nil => simp [Memory.insert]
    | cons c m ih =>
      obtain ⟨a, b⟩ := c
      rw [List.pairwise_cons] at hp
      unfold Memory.insert
      split
      · next h =>
        refine List.pairwise_cons.2 ⟨fun c hc => ?_, List.pairwise_cons.2 hp⟩
        rcases List.mem_cons.1 hc with rfl | hc
        · exact h
        · exact Nat.lt_trans h (hp.1 c hc)
      · split
        · next h => exact List.pairwise_cons.2 ⟨fun c hc => h ▸ hp.1 c hc, hp.2⟩
        · next h h' =>
          refine List.pairwise_cons.2 ⟨fun c hc => ?_, ih hp.2⟩
          rcases mem_insert m i v c hc with rfl | hc
          · exact Nat.lt_of_le_of_ne (Nat.le_of_not_lt h) (Ne.symm h')
          · exact hp.1 c hc
  · rcases mem_insert m i v c hc with rfl | hc
    · exact hi
    · exact hm.2 c hc

/-- Reading a byte after storing one in the same buffer. -/
theorem peek_poke (s : State) (B : Buf) (i k : Nat) (v : Byte) :
    (s.poke B i v).peek B k = if k = i then v else s.peek B k := by
  cases B <;> by_cases h : k = i <;> simp [State.peek, lookup_insert, h]

/-- The buffers are separate address spaces. -/
theorem peek_poke_other (s : State) (B B' : Buf) (i k : Nat) (v : Byte) (h : B' ≠ B) :
    (s.poke B i v).peek B' k = s.peek B' k := by
  cases B <;> cases B' <;> first | exact absurd rfl h | rfl

/-- Storing a list of bytes at rising indices. -/
def Memory.store (m : Memory) (i : Nat) : List Byte → Memory
  | [] => m
  | b :: l => Memory.store (Memory.insert m i b) (i + 1) l

theorem lookup_store (l : List Byte) (m : Memory) (i k : Nat) :
    Memory.lookup (Memory.store m i l) k =
      if h : i ≤ k ∧ k < i + l.length then some (l[k - i]'(by omega)) else Memory.lookup m k := by
  induction l generalizing m i with
  | nil =>
    simp [Memory.store]
  | cons b l ih =>
    rw [Memory.store, ih, lookup_insert]
    by_cases hk : k = i
    · subst hk
      simp
    · by_cases h : i + 1 ≤ k ∧ k < i + 1 + l.length
      · have h' : i ≤ k ∧ k < i + (b :: l).length := by simp; omega
        obtain ⟨j, rfl⟩ : ∃ j, k = i + 1 + j := ⟨k - (i + 1), by omega⟩
        have e1 : i + 1 + j - (i + 1) = j := by omega
        have e2 : i + 1 + j - i = j + 1 := by omega
        rw [dif_pos h, dif_pos h']
        simp only [e1, e2, List.getElem_cons_succ]
      · have h' : ¬ (i ≤ k ∧ k < i + (b :: l).length) := by simp; omega
        simp only [h, h', dif_neg, not_false_eq_true, if_neg hk]

/-- Storing a list of bytes inside the buffer keeps the canonical form. -/
theorem store_wf (size : Nat) (l : List Byte) (m : Memory) (i : Nat) (hm : Memory.wf size m)
    (hi : i + l.length ≤ size) : Memory.wf size (Memory.store m i l) := by
  induction l generalizing m i with
  | nil => exact hm
  | cons b l ih =>
    simp only [List.length_cons] at hi
    exact ih _ _ (insert_wf size m i b hm (by omega)) (by omega)

end Sys2Proof.Machine
end

