-- ==== Sys2Proof/Laws/Pump.lean ====
section
/-! SUPPORT. What the pumps' loops, drains and fills do, said once (spec/40_pump.md R83 to R85). -/

namespace Sys2Proof.Machine

/-! ## The primitives of R9: when each answers, and with what -/

theorem memRead_eq_ok (s : State) (B : Buf) (i : Nat) (b : Byte) :
    s.memRead B i = .ok b ↔ i < s.bufSize B ∧ s.peek B i = b := by
  by_cases h : i < s.bufSize B <;> simp [State.memRead, h]

theorem memWrite_eq_ok (s s' : State) (B : Buf) (i : Nat) (b : Byte) :
    s.memWrite B i b = .ok s' ↔ i < s.bufSize B ∧ s.poke B i b = s' := by
  by_cases h : i < s.bufSize B <;> simp [State.memWrite, h]

theorem fifoPush_eq_ok (s s' : State) (q : Fifo) (b : Byte) :
    s.fifoPush q b = .ok s' ↔ s.fill q < s.cfg.fifoCap ∧ s.setFifo q (s.fifo q ++ [b]) = s' := by
  by_cases h : s.fill q < s.cfg.fifoCap <;> simp [State.fifoPush, h]

theorem fifoPop_eq_ok (s s' : State) (q : Fifo) (b : Byte) :
    s.fifoPop q = .ok (b, s') ↔ ∃ l, s.fifo q = b :: l ∧ s.setFifo q l = s' := by
  cases h : s.fifo q <;> simp [State.fifoPop, h, eq_comm]

/-! ## The loops -/

/-- Two appends to TXQ are one. -/
theorem setFifo_tx_append (s : State) (b : Byte) (i n : Nat) :
    (s.setFifo .tx (s.txq ++ [b])).setFifo .tx
        ((s.setFifo .tx (s.txq ++ [b])).txq ++ (s.setFifo .tx (s.txq ++ [b])).bytesAt .tx (i + 1) n) =
      s.setFifo .tx (s.txq ++ b :: s.bytesAt .tx (i + 1) n) := by
  simp [State.setFifo, State.bytesAt, State.peek]

/-- The bytes at `n + 1` indices are the first and the rest. -/
theorem bytesAt_succ (s : State) (B : Buf) (i n : Nat) :
    s.bytesAt B i (n + 1) = s.peek B i :: s.bytesAt B (i + 1) n := by
  simp [State.bytesAt, List.range_succ_eq_map, Nat.add_assoc, Nat.add_comm 1]

@[simp] theorem bytesAt_zero (s : State) (B : Buf) (i : Nat) : s.bytesAt B i 0 = [] := rfl

@[simp] theorem bytesAt_length (s : State) (B : Buf) (i n : Nat) : (s.bytesAt B i n).length = n := by
  simp [State.bytesAt]

/-- Consecutive stretches of a buffer. -/
theorem bytesAt_append (s : State) (B : Buf) (i m n : Nat) :
    s.bytesAt B i m ++ s.bytesAt B (i + m) n = s.bytesAt B i (m + n) := by
  simp [State.bytesAt, List.range_add, Nat.add_assoc]

/-- The bytes of a buffer depend on that buffer alone. -/
theorem bytesAt_congr (s t : State) (B : Buf) (i n : Nat) (h : t.buf B = s.buf B) :
    t.bytesAt B i n = s.bytesAt B i n := by
  simp [State.bytesAt, State.peek, h]

@[simp] theorem setFifo_tx_self (s : State) : s.setFifo .tx s.txq = s := rfl

@[simp] theorem setFifo_rx_self (s : State) : s.setFifo .rx s.rxq = s := rfl

@[simp] theorem setBuf_rx_self (s : State) : s.setBuf .rx s.rxBuf = s := rfl

/-- The transmit loop, where it has room and stays inside TxBuf, appends the bytes in index order. -/
theorem pushBytes_ok (n : Nat) (s : State) (i : Nat) (hi : n = 0 ∨ i + n ≤ s.cfg.nTx)
    (hq : n = 0 ∨ s.txq.length + n ≤ s.cfg.fifoCap) :
    s.pushBytes i n = .ok (s.setFifo .tx (s.txq ++ s.bytesAt .tx i n)) := by
  induction n generalizing s i with
  | zero => simp [State.pushBytes]
  | succ n ih =>
    have h1 : i < s.cfg.nTx := by omega
    have h2 : s.txq.length < s.cfg.fifoCap := by omega
    simp only [State.pushBytes, State.memRead, State.fifoPush, bufSize_tx, fill_tx, fifo_tx, h1, h2, if_true]
    rw [ih _ _ (by simp; omega) (by simp; omega), setFifo_tx_append, bytesAt_succ]

/-- The transmit loop stops with FifoFull where TXQ runs full inside TxBuf. -/
theorem pushBytes_full (n : Nat) (s : State) (i : Nat) (hi : i + n ≤ s.cfg.nTx)
    (hq : s.cfg.fifoCap < s.txq.length + n) (hc : 0 < n) : s.pushBytes i n = .error .fifoFull := by
  induction n generalizing s i with
  | zero => exact absurd hc (Nat.lt_irrefl 0)
  | succ n ih =>
    have h1 : i < s.cfg.nTx := by omega
    by_cases h2 : s.txq.length < s.cfg.fifoCap
    · simp only [State.pushBytes, State.memRead, State.fifoPush, bufSize_tx, fill_tx, fifo_tx, h1, h2, if_true]
      exact ih _ _ (by simp; omega) (by simp; omega) (by omega)
    · simp [State.pushBytes, State.memRead, State.fifoPush, h1, h2]

/-- If the transmit loop answers, it has appended bytes of TxBuf to TXQ and written nothing else. -/
theorem pushBytes_cases (n : Nat) (s s' : State) (i : Nat) (h : s.pushBytes i n = .ok s') :
    s' = s.setFifo .tx (s.txq ++ s.bytesAt .tx i n) := by
  induction n generalizing s i with
  | zero =>
    have : s = s' := by simpa [State.pushBytes] using h
    simp [this]
  | succ n ih =>
    simp only [State.pushBytes] at h
    split at h
    · exact absurd h (by simp)
    · next b hb =>
      split at h
      · exact absurd h (by simp)
      · next s1 h1 =>
        obtain ⟨-, rfl⟩ := (memRead_eq_ok s .tx i b).1 hb
        obtain ⟨-, rfl⟩ := (fifoPush_eq_ok s s1 .tx _).1 h1
        rw [ih _ _ h, fifo_tx, setFifo_tx_append, bytesAt_succ]

/-- A pop and a store, then the rest, are one drain. -/
theorem poke_then_store (s : State) (i : Nat) (b : Byte) (l : List Byte) (n : Nat) :
    (((s.setFifo .rx l).poke .rx i b).setFifo .rx (l.drop n)).setBuf .rx
        (Memory.store (Memory.insert s.rxBuf i b) (i + 1) (l.take n)) =
      (s.setFifo .rx ((b :: l).drop (n + 1))).setBuf .rx (Memory.store s.rxBuf i ((b :: l).take (n + 1))) := by
  simp [State.setFifo, State.poke, State.setBuf, Memory.store]

/-- The receive loop, where RXQ holds the bytes and RxBuf has the indices, stores them in index order. -/
theorem popBytes_ok (n : Nat) (s : State) (i : Nat) (hi : n = 0 ∨ i + n ≤ s.cfg.nRx) (hq : n ≤ s.rxq.length) :
    s.popBytes i n =
      .ok ((s.setFifo .rx (s.rxq.drop n)).setBuf .rx (Memory.store s.rxBuf i (s.rxq.take n))) := by
  induction n generalizing s i with
  | zero => simp [State.popBytes, Memory.store, State.setFifo, State.setBuf]
  | succ n ih =>
    obtain ⟨b, l, hl⟩ : ∃ b l, s.rxq = b :: l := by
      cases h : s.rxq with
      | nil => simp [h] at hq
      | cons b l => exact ⟨b, l, rfl⟩
    have h1 : i < s.cfg.nRx := by omega
    have h2 : n ≤ l.length := by simpa [hl] using hq
    simp only [State.popBytes, State.fifoPop, fifo_rx, hl, State.memWrite, bufSize_rx, setFifo_cfg, h1, if_true]
    rw [ih _ _ (by simp; omega) (by simpa using h2)]
    refine congrArg Except.ok ?_
    simpa using poke_then_store s i b l n

/-- If the receive loop answers, it has moved bytes from RXQ to RxBuf and written nothing else. -/
theorem popBytes_cases (n : Nat) (s s' : State) (i : Nat) (h : s.popBytes i n = .ok s') :
    n ≤ s.rxq.length ∧
      s' = (s.setFifo .rx (s.rxq.drop n)).setBuf .rx (Memory.store s.rxBuf i (s.rxq.take n)) := by
  induction n generalizing s i with
  | zero =>
    have : s = s' := by simpa [State.popBytes] using h
    simp [this, Memory.store]
  | succ n ih =>
    simp only [State.popBytes] at h
    split at h
    · exact absurd h (by simp)
    · next b s1 hp =>
      obtain ⟨l, hl, rfl⟩ := (fifoPop_eq_ok s s1 .rx b).1 hp
      rw [fifo_rx] at hl
      split at h
      · exact absurd h (by simp)
      · next s2 h2 =>
        obtain ⟨-, rfl⟩ := (memWrite_eq_ok _ s2 .rx i b).1 h2
        obtain ⟨hn, hs⟩ := ih _ _ h
        refine ⟨by simpa [hl] using hn, ?_⟩
        rw [hs, hl]
        simpa using poke_then_store s i b l n

/-- What RxBuf holds after a drain: the bytes popped, in order, at the indices from the cursor; the rest as before. -/
theorem peek_store (s t : State) (l : List Byte) (i k : Nat) (h : t.rxBuf = Memory.store s.rxBuf i l) :
    t.peek .rx k = if h : i ≤ k ∧ k < i + l.length then l[k - i]'(by omega) else s.peek .rx k := by
  simp only [State.peek, buf_rx, h, lookup_store]
  split <;> simp

/-! ## The pumps' halves -/

/-- The bytes a receive half moves. -/
def State.drainCount (s : State) (id : SessionId) : Nat :=
  min ((s.session id).len - (s.session id).cur) s.rxq.length

/-- The state after a receive half of `n` bytes. -/
def State.drained (s : State) (id : SessionId) (n : Nat) : State :=
  (((s.setFifo .rx (s.rxq.drop n)).setBuf .rx
    (Memory.store s.rxBuf (s.session id).cur (s.rxq.take n)))).setSession id ((s.session id).moved n)

/-- If a pump's receive half answers, it has moved `drainCount` bytes. -/
theorem drain_cases (s s' : State) (id : SessionId) (h : s.drain id = .ok s') :
    s' = s.drained id (s.drainCount id) := by
  simp only [State.drain, fill_rx] at h
  split at h
  · exact absurd h (by simp)
  · next s1 h1 =>
    have := (popBytes_cases _ _ _ _ h1).2
    subst this
    simpa [State.drained, State.drainCount, State.advance] using h.symm

/-- A pump's receive half answers where the session's remainder lies inside RxBuf. -/
theorem drain_ok (s : State) (id : SessionId) (hc : (s.session id).cur ≤ (s.session id).len)
    (hl : (s.session id).len ≤ s.cfg.nRx) : s.drain id = .ok (s.drained id (s.drainCount id)) := by
  simp only [State.drain, fill_rx]
  rw [popBytes_ok _ _ _ (by omega) (by omega)]
  simp [State.drained, State.drainCount, State.advance]

/-- The bytes PumpTX moves (R83). -/
def State.fillCount (s : State) : Nat :=
  min (s.sT.len - s.sT.cur) (s.cfg.fifoCap - s.txq.length)

/-- If PumpTX answers, it has appended `fillCount` bytes to TXQ and advanced the cursor by as many (R83). -/
theorem pumpTx_cases (s s' : State) (h : s.pumpTx = .ok s') :
    s' = (s.setFifo .tx (s.txq ++ s.bytesAt .tx s.sT.cur s.fillCount)).setSession .t (s.sT.moved s.fillCount) := by
  simp only [State.pumpTx, fill_tx] at h
  split at h
  · exact absurd h (by simp)
  · next s1 h1 =>
    have := pushBytes_cases _ _ _ _ h1
    subst this
    simpa [State.fillCount, State.advance] using h.symm

/-- PumpTX answers where the session's remainder lies inside TxBuf (R83). -/
theorem pumpTx_ok (s : State) (hc : s.sT.cur ≤ s.sT.len) (hl : s.sT.len ≤ s.cfg.nTx) :
    s.pumpTx =
      .ok ((s.setFifo .tx (s.txq ++ s.bytesAt .tx s.sT.cur s.fillCount)).setSession .t (s.sT.moved s.fillCount)) := by
  simp only [State.pumpTx, fill_tx]
  rw [pushBytes_ok _ _ _ (by omega) (by omega)]
  simp [State.fillCount, State.advance]

/-- The chunk PumpSPI pushes after its receive half; 0 where the session is complete (R85). -/
def State.chunk (s : State) : Nat := min (s.sX.len - s.sX.cur) s.cfg.fifoCap

/-- If the transmit half of PumpSPI answers, it has appended one chunk to TXQ (nothing where the session is complete). -/
theorem pushChunk_cases (s s' : State) (h : s.pushChunk = .ok s') :
    s' = s.setFifo .tx (s.txq ++ s.bytesAt .tx s.sX.cur s.chunk) := by
  unfold State.pushChunk at h
  split at h
  · exact pushBytes_cases _ _ _ _ h
  · next hc =>
    have h0 : s.chunk = 0 := by simp [State.chunk]; omega
    obtain rfl : s = s' := by simpa using h
    simp [h0]

/-- The transmit half of PumpSPI answers where TXQ has room for the chunk and the remainder lies inside TxBuf. -/
theorem pushChunk_ok (s : State) (hl : s.sX.len ≤ s.cfg.nTx)
    (hq : s.chunk = 0 ∨ s.txq.length + s.chunk ≤ s.cfg.fifoCap) :
    s.pushChunk = .ok (s.setFifo .tx (s.txq ++ s.bytesAt .tx s.sX.cur s.chunk)) := by
  unfold State.pushChunk
  by_cases hc : s.sX.cur < s.sX.len
  · simp only [hc, if_true]
    refine pushBytes_ok _ _ _ ?_ ?_ <;> simp only [State.chunk] at * <;> omega
  · have h0 : s.chunk = 0 := by simp [State.chunk]; omega
    simp [hc, h0]

/-! ## The pumps whole (R81, R82) -/

/-- If `Pump(S_T)` answers: bytes of TxBuf appended to TXQ, the session's fields, and nothing else. -/
theorem pump_t_cases (s s' : State) (h : s.pump .t = .ok s') :
    s' = (s.setFifo .tx (s.txq ++ s.bytesAt .tx s.sT.cur s.fillCount)).setSession .t
      ((s.sT.moved s.fillCount).epilogue s.cfg.fifoCap) := by
  simp only [State.pump, State.pumpBody] at h
  split at h
  · exact absurd h (by simp)
  · next s1 h1 =>
    rw [pumpTx_cases _ _ h1] at h
    simpa [State.epilogue] using h.symm

theorem pump_t_ok (s : State) (hc : s.sT.cur ≤ s.sT.len) (hl : s.sT.len ≤ s.cfg.nTx) :
    s.pump .t = .ok ((s.setFifo .tx (s.txq ++ s.bytesAt .tx s.sT.cur s.fillCount)).setSession .t
      ((s.sT.moved s.fillCount).epilogue s.cfg.fifoCap)) := by
  simp [State.pump, State.pumpBody, pumpTx_ok s hc hl, State.epilogue]

/-- If `Pump(S_R)` answers: bytes moved from RXQ to RxBuf, the session's fields, and nothing else. -/
theorem pump_r_cases (s s' : State) (h : s.pump .r = .ok s') :
    s' = ((s.setFifo .rx (s.rxq.drop (s.drainCount .r))).setBuf .rx
        (Memory.store s.rxBuf s.sR.cur (s.rxq.take (s.drainCount .r)))).setSession .r
      ((s.sR.moved (s.drainCount .r)).epilogue s.cfg.fifoCap) := by
  simp only [State.pump, State.pumpBody, State.pumpRx] at h
  split at h
  · exact absurd h (by simp)
  · next s1 h1 =>
    rw [drain_cases _ _ _ h1] at h
    simpa [State.epilogue, State.drained] using h.symm

theorem pump_r_ok (s : State) (hc : s.sR.cur ≤ s.sR.len) (hl : s.sR.len ≤ s.cfg.nRx) :
    s.pump .r = .ok (((s.setFifo .rx (s.rxq.drop (s.drainCount .r))).setBuf .rx
        (Memory.store s.rxBuf s.sR.cur (s.rxq.take (s.drainCount .r)))).setSession .r
      ((s.sR.moved (s.drainCount .r)).epilogue s.cfg.fifoCap)) := by
  simp [State.pump, State.pumpBody, State.pumpRx, drain_ok s .r hc hl, State.epilogue, State.drained]

/-- The state after `Pump(S_X)`: `n` bytes drained, then `k` pushed, then the epilogue (R85, R82). -/
def State.pumpedX (s : State) (n k : Nat) : State :=
  (((s.setFifo .rx (s.rxq.drop n)).setBuf .rx (Memory.store s.rxBuf s.sX.cur (s.rxq.take n))).setFifo .tx
      (s.txq ++ s.bytesAt .tx (s.sX.cur + n) k)).setSession .x ((s.sX.moved n).epilogue s.cfg.fifoCap)

/-- If `Pump(S_X)` answers: bytes moved from RXQ to RxBuf, one chunk of TxBuf appended to TXQ, the session's fields, and
nothing else. -/
theorem pump_x_cases (s s' : State) (h : s.pump .x = .ok s') :
    s' = s.pumpedX (s.drainCount .x) (min (s.sX.len - (s.sX.cur + s.drainCount .x)) s.cfg.fifoCap) := by
  simp only [State.pump, State.pumpBody, State.pumpSpi] at h
  split at h
  · exact absurd h (by simp)
  · next s1 h1 =>
    split at h1
    · exact absurd h1 (by simp)
    · next s2 h2 =>
      rw [drain_cases _ _ _ h2] at h1
      rw [pushChunk_cases _ _ h1] at h
      rw [← Except.ok.inj h]
      rfl

theorem pump_x_ok (s : State) (k : Nat) (hc : s.sX.cur ≤ s.sX.len) (hl : s.sX.len ≤ min s.cfg.nTx s.cfg.nRx)
    (hk : k = min (s.sX.len - (s.sX.cur + s.drainCount .x)) s.cfg.fifoCap)
    (hq : k = 0 ∨ s.txq.length + k ≤ s.cfg.fifoCap) : s.pump .x = .ok (s.pumpedX (s.drainCount .x) k) := by
  subst hk
  simp only [State.pump, State.pumpBody, State.pumpSpi, drain_ok s .x hc (by simp; omega)]
  rw [pushChunk_ok _ (by simp [State.drained]; omega) (by simpa [State.drained, State.chunk] using hq)]
  rfl

/-- `Pump(S_X)` stops with FifoFull where TXQ has no room for the next chunk (R85, R172). -/
theorem pump_x_full (s : State) (k : Nat) (hl : s.sX.len ≤ min s.cfg.nTx s.cfg.nRx)
    (hk : k = min (s.sX.len - (s.sX.cur + s.drainCount .x)) s.cfg.fifoCap) (h0 : 0 < k)
    (hq : s.cfg.fifoCap < s.txq.length + k) : s.pump .x = .error .fifoFull := by
  subst hk
  simp only [State.pump, State.pumpBody, State.pumpSpi, drain_ok s .x (by simp; omega) (by simp; omega)]
  have h1 : (s.drained .x (s.drainCount .x)).sX.cur < (s.drained .x (s.drainCount .x)).sX.len := by
    simp [State.drained]; omega
  simp only [State.pushChunk, h1, if_true]
  rw [pushBytes_full] <;> simp [State.drained] <;> omega

end Sys2Proof.Machine
end

