-- ==== Sys2Proof/Laws/Commands.lean ====
section
/-! SUPPORT. What a command, an event and a step can do, said once: if it answers a next state, what that state is
(spec/42_api.md, 43_buffer_port.md, 44_collaborators.md; 20_memory.md R43). -/

namespace Sys2Proof.Machine

/-! ## Guards -/

theorem onKind_eq_next (k : Kind) (s t : State) (o : Host.Outcome State Fault Refusal) :
    onKind k s o = .next t ↔ (s.cfg.kind = k ∧ o = .next t) ∨ (s.cfg.kind ≠ k ∧ t = s.illegal) := by
  by_cases h : s.cfg.kind = k <;> simp [onKind, h, eq_comm]

theorem onEndpoint_eq_next (e : Endpoint) (s t : State) (o : Host.Outcome State Fault Refusal) :
    onEndpoint e s o = .next t ↔ (e.toNat < s.cfg.nEp ∧ o = .next t) ∨ (s.cfg.nEp ≤ e.toNat ∧ t = s.illegal) := by
  by_cases h : e.toNat < s.cfg.nEp
  · simp [onEndpoint, h]
  · simp [onEndpoint, h, Nat.le_of_not_lt h, eq_comm]

theorem answerOk_eq_next (r : Except Fault State) (t : State) :
    answerOk r = .next t ↔ ∃ u, r = .ok u ∧ t = u.respond .ok 0 := by
  cases r <;> simp [answerOk, eq_comm]

theorem eventOutcome_eq_next (r : Except Fault State) (t : State) : eventOutcome r = .next t ↔ r = .ok t := by
  cases r <;> simp [eventOutcome]

/-! ## START (R109) -/

/-- START that is turned away. -/
theorem startSession_rejected (id : SessionId) (n : Nat) (body : State → Except Fault State) (s : State)
    (h : (s.session id).st ≠ .idle ∨ n = 0 ∨ s.capacity id < n) : startSession id n body s = .next s.rejected := by
  by_cases h1 : (s.session id).st ≠ .idle
  · simp [startSession, h1]
  · simp [startSession, h.resolve_left h1]

/-- START that is accepted. -/
theorem startSession_accepted (id : SessionId) (n : Nat) (body : State → Except Fault State) (s : State)
    (h : (s.session id).st = .idle) (h1 : 1 ≤ n) (h2 : n ≤ s.capacity id) :
    startSession id n body s = answerOk (body s) := by
  have h3 : ¬ (n = 0 ∨ s.capacity id < n) := by omega
  simp [startSession, h, h3]

/-- If START answers: it was turned away, or it was accepted and its body ran. -/
theorem startSession_cases (id : SessionId) (n : Nat) (body : State → Except Fault State) (s t : State)
    (h : startSession id n body s = .next t) :
    t = s.rejected ∨ ((s.session id).st = .idle ∧ 1 ≤ n ∧ n ≤ s.capacity id ∧
      ∃ u, body s = .ok u ∧ t = u.respond .ok 0) := by
  by_cases hr : (s.session id).st ≠ .idle ∨ n = 0 ∨ s.capacity id < n
  · rw [startSession_rejected id n body s hr] at h
    exact .inl (Host.Outcome.next.inj h).symm
  · obtain ⟨h1, h2⟩ := not_or.1 hr
    rw [startSession_accepted id n body s (not_not.1 h1) (by omega) (by omega), answerOk_eq_next] at h
    exact .inr ⟨not_not.1 h1, by omega, by omega, h⟩

/-! ## The liveness check (R101) -/

/-- The liveness check records both snapshots, ends the session TimedOut, or (branch L1) ends it Finished. -/
theorem livenessCheck_cases (s : State) :
    s.livenessCheck = s.recordSnapshot ∨
      (s.livenessCheck = s.endReceive .timedOut ∧ s.watch.pvalid = true ∧ s.sR.cur = s.watch.pcur ∧
        ((s.fill .rx = 0 ∧ s.sR.cur ≠ s.sR.len ∧ s.sR.cur ≠ 0) ∨ (s.fill .rx ≠ 0 ∧ s.fill .rx = s.watch.pfill))) ∨
      (s.livenessCheck = s.endReceive .finished ∧ s.sR.cur = s.sR.len) := by
  unfold State.livenessCheck
  split_ifs <;> simp_all

/-! ## The buffer port (R136 to R139) -/

/-- If BUFWR answers: it was turned away, or one byte was stored. -/
theorem writeBuffer_cases (B : Buf) (i : Nat) (v : Byte) (s t : State) (h : writeBuffer B i v s = .next t) :
    t = s.rejected ∨ ((s.session (s.owner B)).st ≠ .inProgress ∧ i < s.bufSize B ∧ t = (s.poke B i v).respond .ok 0) := by
  by_cases hm : s.hostMayAccess B i = true
  · obtain ⟨h1, h2⟩ : (s.session (s.owner B)).st ≠ .inProgress ∧ i < s.bufSize B := by
      simpa [State.hostMayAccess] using hm
    have : (s.poke B i v).respond .ok 0 = t := by simpa [writeBuffer, hm, State.memWrite, h2, answerOk] using h
    exact .inr ⟨h1, h2, this.symm⟩
  · exact .inl (by simpa [writeBuffer, hm, eq_comm] using h)

/-- If BUFRD answers: it was turned away, or the byte was reported. -/
theorem readBuffer_cases (B : Buf) (i : Nat) (s t : State) (h : readBuffer B i s = .next t) :
    t = s.rejected ∨ ((s.session (s.owner B)).st ≠ .inProgress ∧ i < s.bufSize B ∧
      t = s.respond .ok ((s.peek B i).setWidth 28)) := by
  by_cases hm : s.hostMayAccess B i = true
  · obtain ⟨h1, h2⟩ : (s.session (s.owner B)).st ≠ .inProgress ∧ i < s.bufSize B := by
      simpa [State.hostMayAccess] using hm
    have : s.respond .ok ((s.peek B i).setWidth 28) = t := by simpa [readBuffer, hm, State.memRead, h2] using h
    exact .inr ⟨h1, h2, this.symm⟩
  · exact .inl (by simpa [readBuffer, hm, eq_comm] using h)

/-! ## Events -/

/-- If an event answers: it was enabled and fired, or it was not and nothing happened. -/
theorem execEvent_cases (e : Event) (s t : State) (h : execEvent e s = .next t) :
    (s.enabled e = true ∧ s.fire e = .ok t) ∨ (s.enabled e = false ∧ t = s) := by
  by_cases he : s.enabled e = true
  · exact .inl ⟨he, (eventOutcome_eq_next _ t).1 (by simpa [execEvent, he] using h)⟩
  · exact .inr ⟨by simpa using he, by simpa [execEvent, he, eq_comm] using h⟩

/-- A byte that arrives is queued or sets the overflow flag (R150). -/
theorem arrive_eq (s : State) (b : Byte) :
    s.arrive b = .ok (if s.fill .rx < s.cfg.fifoCap then s.setFifo .rx (s.rxq ++ [b]) else s.setOverflow true) := by
  by_cases h : s.rxq.length < s.cfg.fifoCap <;> simp [State.arrive, State.fifoPush, h]

/-- If TX_LOAD answers: the head of TXQ is in the shift register (R148). -/
theorem txLoad_cases (s t : State) (h : s.txLoad = .ok t) :
    ∃ b l, s.txq = b :: l ∧ t = (s.setFifo .tx l).setShift (some b) := by
  unfold State.txLoad at h
  split at h
  · exact absurd h (by simp)
  · next b s' hp =>
    obtain ⟨l, hl, rfl⟩ := (fifoPop_eq_ok s s' .tx b).1 hp
    exact ⟨b, l, hl, (Except.ok.inj h).symm⟩

/-- If XCHG answers: the head of TXQ left under `cs`, and the byte returned has arrived (R152). -/
theorem xchg_cases (s t : State) (r : Byte) (h : s.xchg r = .ok t) :
    ∃ b l, s.txq = b :: l ∧ ((s.setFifo .tx l).emit (.spi s.cs b)).arrive r = .ok t := by
  unfold State.xchg at h
  split at h
  · exact absurd h (by simp)
  · next b s' hp =>
    obtain ⟨l, hl, rfl⟩ := (fifoPop_eq_ok s s' .tx b).1 hp
    exact ⟨b, l, hl, by simpa using h⟩

/-- TICK: nothing, one tick of the budget, or expiry (R98). -/
theorem tick_cases (s : State) :
    s.tick = s ∨ ∃ t, s.cfg.kind = .uart ∧ s.sR.st = .inProgress ∧ s.watch.tmo = some t ∧
      ((0 < t - 1 ∧ s.tick = s.setBudget (t - 1)) ∨ (t - 1 ≤ 0 ∧ s.tick = (s.setBudget (t - 1)).endReceive .timedOut)) := by
  unfold State.tick
  split
  · next h =>
    split
    · exact .inl rfl
    · next t ht =>
      refine .inr ⟨t, h.1, h.2, ht, ?_⟩
      split
      · next h0 => exact .inr ⟨h0, rfl⟩
      · next h0 => exact .inl ⟨by omega, rfl⟩
  · exact .inl rfl

/-! ## The step -/

/-- Taking the next agent step changes the model's own two fields only. -/
theorem takeAgentStep_frame (s : State) : ∃ l n, s.takeAgentStep.2 = { s with schedule := l, drawn := n } := by
  unfold State.takeAgentStep
  split
  · exact ⟨_, _, rfl⟩
  · exact ⟨_, _, rfl⟩

/-- If a step answers: it ran a command, answered ILLEGAL, or fired an event, from the state the agent step was taken
from. -/
theorem step_cases (s t : State) (h : step s = .next t) :
    (∃ w i, s.takeAgentStep.1 = .command w ∧ decode s.takeAgentStep.2.cfg w = .ok i ∧
      exec i s.takeAgentStep.2 = .next t) ∨
    (∃ w c, s.takeAgentStep.1 = .command w ∧ decode s.takeAgentStep.2.cfg w = .error c ∧
      t = s.takeAgentStep.2.illegal) ∨
    (∃ e, s.takeAgentStep.1 = .event e ∧ execEvent e s.takeAgentStep.2 = .next t) := by
  unfold step at h
  split at h
  · next w s' hs =>
    unfold runCommand at h
    split at h
    · next i hd => exact .inl ⟨w, i, by rw [hs], by rw [hs]; exact hd, by rw [hs]; exact h⟩
    · next c hd => exact .inr (.inl ⟨w, c, by rw [hs], by rw [hs]; exact hd, by rw [hs]; exact (Host.Outcome.next.inj h).symm⟩)
  · next e s' hs => exact .inr (.inr ⟨e, by rw [hs], by rw [hs]; exact h⟩)

end Sys2Proof.Machine
end

