-- ==== Sys2Proof/Laws/Invariant.lean ====
section
/-! SUPPORT. The invariant as a check that evaluates: a state that passes it meets `Inv`. -/

namespace Sys2Proof.Machine

/-- `SessionInv`, evaluated. -/
def Session.check (f : Session) (cap fifoCap : Nat) : Bool :=
  decide ((f.st = .idle → f.cur = 0) ∧ f.len ≤ cap ∧ (f.st ≠ .idle → 1 ≤ f.len) ∧ f.cur ≤ f.len ∧
    (f.st = .finished ↔ f.st ≠ .idle ∧ f.cur = f.len) ∧ (f.ie = true ↔ f.st = .inProgress) ∧
    (f.st = .inProgress → f.thr = min (f.len - f.cur) fifoCap) ∧ f.thr ≤ fifoCap)

theorem sessionInv_of_check (f : Session) (cap fifoCap : Nat) (h : f.check cap fifoCap = true) :
    SessionInv f cap fifoCap := by
  obtain ⟨h1, h2, h3, h4, h5, h6, h7, h8⟩ := of_decide_eq_true h
  exact ⟨h1, h2, h3, h4, h5, h6, h7, h8⟩

/-- `WatchInv`, evaluated. -/
def State.watchCheck (s : State) : Bool :=
  (s.watch.tmo.all fun t => decide (-1 ≤ t ∧ t ≤ 65535)) &&
  (s.watch.tmo.all fun t => decide (s.sR.st = .inProgress → 0 ≤ t)) &&
  decide (s.watch.pcur ≤ s.sR.len ∧ s.watch.pfill ≤ s.cfg.fifoCap ∧
    (s.sR.st = .inProgress → s.watch.pvalid = true →
      s.watch.pcur ≤ s.sR.cur ∧ (s.watch.pcur = s.sR.cur → s.watch.pfill ≤ s.fill .rx)))

theorem watchInv_of_check (s : State) (h : s.watchCheck = true) : WatchInv s := by
  simp only [State.watchCheck, Bool.and_eq_true, Option.all_eq_true] at h
  obtain ⟨⟨h1, h2⟩, h3⟩ := h
  obtain ⟨h4, h5, h6⟩ := of_decide_eq_true h3
  exact ⟨fun t ht => of_decide_eq_true (h1 t ht), fun t hs ht => of_decide_eq_true (h2 t ht) hs, h4, h5, h6⟩

/-- `Inv`, evaluated. -/
def State.check (s : State) : Bool :=
  decide s.cfg.wf && s.sT.check s.cfg.nTx s.cfg.fifoCap && s.sR.check s.cfg.nRx s.cfg.fifoCap &&
  s.sX.check (min s.cfg.nTx s.cfg.nRx) s.cfg.fifoCap && decide (s.sT.st ≠ .timedOut ∧ s.sX.st ≠ .timedOut) &&
  s.watchCheck && decide (s.fill .tx ≤ s.cfg.fifoCap ∧ s.fill .rx ≤ s.cfg.fifoCap) &&
  decide (Memory.wf s.cfg.nTx s.txBuf) && decide (Memory.wf s.cfg.nRx s.rxBuf) &&
  (s.cs.all fun e => decide (e.toNat < s.cfg.nEp)) && (s.wire.all fun w => decide (w.kind = s.cfg.kind)) &&
  (s.responses.all fun w => decide (w.op.toNat ≤ 2)) &&
  decide (s.cfg.kind = .uart → s.sX.st = .idle ∧ s.cs = none) &&
  decide (s.cfg.kind = .spi → s.sT.st = .idle ∧ s.sR.st = .idle ∧ s.txsh = none ∧
    (s.sX.st = .inProgress → s.fill .tx + s.fill .rx = s.sX.thr) ∧
    (s.sX.st ≠ .inProgress → s.txq = [] ∧ s.rxq = []) ∧ s.rxovf = false)

/-- A state that passes the check meets the invariant. -/
theorem inv_of_check (s : State) (h : s.check = true) : Inv s := by
  simp only [State.check, Bool.and_eq_true, Option.all_eq_true, List.all_eq_true] at h
  obtain ⟨⟨⟨⟨⟨⟨⟨⟨⟨⟨⟨⟨⟨hcfg, ht⟩, hr⟩, hx⟩, hto⟩, hw⟩, hq⟩, htb⟩, hrb⟩, hcs⟩, hwire⟩, hresp⟩, hu⟩, hs⟩ := h
  exact
    { cfg := of_decide_eq_true hcfg
      t := sessionInv_of_check _ _ _ ht
      r := sessionInv_of_check _ _ _ hr
      x := sessionInv_of_check _ _ _ hx
      t_no_timeout := (of_decide_eq_true hto).1
      x_no_timeout := (of_decide_eq_true hto).2
      watch := watchInv_of_check s hw
      txq_le := (of_decide_eq_true hq).1
      rxq_le := (of_decide_eq_true hq).2
      txBuf := of_decide_eq_true htb
      rxBuf := of_decide_eq_true hrb
      cs := fun e he => of_decide_eq_true (hcs e he)
      wire := fun w hw => of_decide_eq_true (hwire w hw)
      responses := fun w hw => of_decide_eq_true (hresp w hw)
      uart := fun k => ⟨(of_decide_eq_true hu k).1, (of_decide_eq_true hu k).2⟩
      spi := fun k =>
        let ⟨h1, h2, h3, h4, h5, h6⟩ := of_decide_eq_true hs k
        ⟨h1, h2, h3, h4, h5, h6⟩ }

end Sys2Proof.Machine
end

