-- ==== Sys2Proof/Laws/PerInstr.lean ====
section
/-! SUPPORT. A statement for every command, one lemma per constructor: its word, at every value of its operands, has the
fixed bits of its row of spec/opcode_table.json (30_encoding.md section 6). -/

namespace Sys2Proof.Laws.RowMatch

/-- The `mask` column of the command's row. -/
def rowMask : Instr → Word
  | .startT _ => 0xFFFF0000#32
  | .startR _ => 0xFFFF0000#32
  | .startX _ _ => 0xFB0F0000#32
  | .statusT => 0xFFFFFFFF#32
  | .statusR => 0xFFFFFFFF#32
  | .statusX => 0xFFFFFFFF#32
  | .ackT => 0xFFFFFFFF#32
  | .ackR => 0xFFFFFFFF#32
  | .ackX => 0xFFFFFFFF#32
  | .select _ => 0xFF0FFFFF#32
  | .deselect => 0xFFFFFFFF#32
  | .settmo _ _ => 0xFFFE0000#32
  | .bufwrT _ _ => 0xFF000000#32
  | .bufwrR _ _ => 0xFF000000#32
  | .bufrdT _ => 0xFF0000FF#32
  | .bufrdR _ => 0xFF0000FF#32

/-- The `match` column of the command's row. -/
def rowMatch : Instr → Word
  | .startT _ => 0x10000000#32
  | .startR _ => 0x18000000#32
  | .startX _ _ => 0x10000000#32
  | .statusT => 0x20000000#32
  | .statusR => 0x28000000#32
  | .statusX => 0x20000000#32
  | .ackT => 0x30000000#32
  | .ackR => 0x38000000#32
  | .ackX => 0x30000000#32
  | .select _ => 0x40000000#32
  | .deselect => 0x50000000#32
  | .settmo _ _ => 0x60000000#32
  | .bufwrT _ _ => 0x70000000#32
  | .bufwrR _ _ => 0x78000000#32
  | .bufrdT _ => 0x80000000#32
  | .bufrdR _ => 0x88000000#32

/-- The word of a command has the fixed bits of its row. -/
def Statement (i : Instr) : Prop := encode i &&& rowMask i = rowMatch i

/-- A field zero-extended and shifted into its place leaves every bit of a mask outside that place 0. -/
theorem field_and_mask {n : Nat} (x : BitVec n) (k : Nat) (m : Word)
    (h : ∀ j : Fin 32, k ≤ j.val → j.val < k + n → m.getLsbD j.val = false) :
    (x.setWidth 32 <<< k) &&& m = 0#32 := by
  apply BitVec.eq_of_getLsbD_eq
  intro j hj
  by_cases h1 : k ≤ j ∧ j < k + n
  · simp [h ⟨j, hj⟩ h1.1 h1.2]
  · have hz : (x.setWidth 32 <<< k).getLsbD j = false := by
      rcases not_and_or.1 h1 with h1 | h1
      · simp [Nat.lt_of_not_le h1]
      · have : n ≤ j - k := by omega
        simp [BitVec.getLsbD_of_ge x _ this]
    simp [hz]

theorem or_and_mask (x y m : Word) : (x ||| y) &&& m = (x &&& m) ||| (y &&& m) := by
  ext j hj
  simp [Bool.and_or_distrib_right]

/-- The field at bit 0. -/
theorem low_and_mask {n : Nat} (x : BitVec n) (m : Word) (h : ∀ j : Fin 32, j.val < n → m.getLsbD j.val = false) :
    x.setWidth 32 &&& m = 0#32 := by
  simpa using field_and_mask x 0 m (fun j _ hj => h j (by omega))

theorem startT (len : BitVec 16) : Statement (.startT len) := by
  show (0x10000000#32 ||| len.setWidth 32) &&& 0xFFFF0000#32 = 0x10000000#32
  rw [or_and_mask, low_and_mask len 0xFFFF0000#32 (by decide)]
  decide

theorem startR (len : BitVec 16) : Statement (.startR len) := by
  show (0x18000000#32 ||| len.setWidth 32) &&& 0xFFFF0000#32 = 0x18000000#32
  rw [or_and_mask, low_and_mask len 0xFFFF0000#32 (by decide)]
  decide

theorem startX (ep : Option Endpoint) (len : BitVec 16) : Statement (.startX ep len) := by
  cases ep with
  | none =>
    show (0x10000000#32 ||| len.setWidth 32) &&& 0xFB0F0000#32 = 0x10000000#32
    rw [or_and_mask, low_and_mask len 0xFB0F0000#32 (by decide)]
    decide
  | some e =>
    show (0x14000000#32 ||| (e.setWidth 32 <<< 20) ||| len.setWidth 32) &&& 0xFB0F0000#32 = 0x10000000#32
    rw [or_and_mask, or_and_mask, low_and_mask len 0xFB0F0000#32 (by decide), field_and_mask e 20 0xFB0F0000#32 (by decide)]
    decide

theorem statusT : Statement .statusT := rfl

theorem statusR : Statement .statusR := rfl

theorem statusX : Statement .statusX := rfl

theorem ackT : Statement .ackT := rfl

theorem ackR : Statement .ackR := rfl

theorem ackX : Statement .ackX := rfl

theorem select (ep : Endpoint) : Statement (.select ep) := by
  show (0x40000000#32 ||| (ep.setWidth 32 <<< 20)) &&& 0xFF0FFFFF#32 = 0x40000000#32
  rw [or_and_mask, field_and_mask ep 20 0xFF0FFFFF#32 (by decide)]
  decide

theorem deselect : Statement .deselect := rfl

theorem settmo (nt : Bool) (tmo : BitVec 16) : Statement (.settmo nt tmo) := by
  show (0x60000000#32 ||| bitAt nt 16 ||| tmo.setWidth 32) &&& 0xFFFE0000#32 = 0x60000000#32
  rw [or_and_mask, or_and_mask, low_and_mask tmo 0xFFFE0000#32 (by decide)]
  cases nt <;> decide

theorem bufwrT (idx : BitVec 16) (data : Byte) : Statement (.bufwrT idx data) := by
  show (0x70000000#32 ||| (idx.setWidth 32 <<< 8) ||| data.setWidth 32) &&& 0xFF000000#32 = 0x70000000#32
  rw [or_and_mask, or_and_mask, field_and_mask idx 8 0xFF000000#32 (by decide), low_and_mask data 0xFF000000#32 (by decide)]
  decide

theorem bufwrR (idx : BitVec 16) (data : Byte) : Statement (.bufwrR idx data) := by
  show (0x78000000#32 ||| (idx.setWidth 32 <<< 8) ||| data.setWidth 32) &&& 0xFF000000#32 = 0x78000000#32
  rw [or_and_mask, or_and_mask, field_and_mask idx 8 0xFF000000#32 (by decide), low_and_mask data 0xFF000000#32 (by decide)]
  decide

theorem bufrdT (idx : BitVec 16) : Statement (.bufrdT idx) := by
  show (0x80000000#32 ||| (idx.setWidth 32 <<< 8)) &&& 0xFF0000FF#32 = 0x80000000#32
  rw [or_and_mask, field_and_mask idx 8 0xFF0000FF#32 (by decide)]
  decide

theorem bufrdR (idx : BitVec 16) : Statement (.bufrdR idx) := by
  show (0x88000000#32 ||| (idx.setWidth 32 <<< 8)) &&& 0xFF0000FF#32 = 0x88000000#32
  rw [or_and_mask, field_and_mask idx 8 0xFF0000FF#32 (by decide)]
  decide

end Sys2Proof.Laws.RowMatch
end

