-- ==== Sys2Proof/Tests/Slice0.lean ====
section
/-! SUPPORT. Tests of one step each, expected results from spec/95_test_vectors.md (the vector named) or from the rule
named; and, for every statement that has hypotheses, a witness: concrete values that meet them. -/

namespace Sys2Proof.Tests

open Sys2Proof.Machine

/-! ## Helpers -/

/-- The parameters of the UART vectors. -/
def uartCfg : Config := ⟨.uart, 16, 50, 50, 4⟩

/-- The parameters of the SPI vectors. -/
def spiCfg : Config := ⟨.spi, 16, 50, 50, 4⟩

/-- The start state of the UART vectors. -/
def uart : State := State.resetOf uartCfg

/-- The start state of the SPI vectors. -/
def spi : State := State.resetOf spiCfg

/-- Some part of the next state; none where there is none. -/
def view {α : Type} (f : State → α) : Host.Outcome State Fault Refusal → Option α
  | .next t => some (f t)
  | .fault _ => none
  | .refused _ => none

/-- The last response on the command port. -/
def last (s : State) : Option Word := s.responses.getLast?

/-- The response to a word that arrives in a state. -/
def answer (s : State) (w : Word) : Option Word :=
  (view last (step { s with schedule := [.command w] })).join

/-- A state with other fields of S_T. -/
def withT (s : State) (f : Session) : State := { s with sT := f }

/-- A state with other fields of S_R. -/
def withR (s : State) (f : Session) : State := { s with sR := f }

/-- A state with other fields of S_X. -/
def withX (s : State) (f : Session) : State := { s with sX := f }

/-- Bytes 1, 2, 3 ... at consecutive indices. -/
def cells (i n : Nat) : Memory := (List.range n).map fun j => (i + j, BitVec.ofNat 8 (j + 1))

/-- Bytes 1, 2, 3 ... -/
def bytes (n : Nat) : List Byte := (List.range n).map fun j => BitVec.ofNat 8 (j + 1)

/-- S_T of T-PU-1: len 40, cur 16. -/
def t40 : Session := ⟨.inProgress, 40, 16, 16, true⟩

/-- S_T or S_R Finished with 5 bytes, as T-ST-5 leaves it. -/
def done5 : Session := ⟨.finished, 5, 5, 0, false⟩

/-- S_R of the liveness vectors: len 10. -/
def r10 (cur : Nat) : Session := ⟨.inProgress, 10, cur, 10 - cur, true⟩

/-- A receive session in progress with the snapshots given and `n` bytes in RXQ. -/
def watching (cur n : Nat) (pvalid : Bool) (pcur pfill : Nat) : State :=
  { withR uart (r10 cur) with watch := ⟨none, pcur, pfill, pvalid⟩, rxq := bytes n }

/-- A receive session in progress that nothing has arrived for, with a budget. -/
def budgeted (t : Int) : State := { withR uart (r10 0) with watch := ⟨some t, 0, 0, false⟩ }

/-- An SPI session of 3 bytes right after START.X 3 (T-ST-9, with TxBuf = [1, 2, 3]). -/
def spi3 : State :=
  { withX spi ⟨.inProgress, 3, 0, 3, true⟩ with txBuf := cells 0 3, txq := bytes 3 }

/-- The same session with its 3 bytes exchanged. -/
def spi3Back : State := { spi3 with txq := [], rxq := bytes 3 }

/-! ## WellFormed refuses -/

/-- The kind check: SELECT on UART, SETTMO on SPI (R70). -/
theorem test_illformed_kind : (Instr.select 0).wf uartCfg = false ∧ (Instr.settmo false 5).wf spiCfg = false := by
  decide

/-- The endpoint check: endpoint 4 of 4 (R71). -/
theorem test_illformed_endpoint :
    (Instr.select 4).wf spiCfg = false ∧ (Instr.startX (some 4) 3).wf spiCfg = false ∧
      (Instr.select 3).wf spiCfg = true := by decide

/-! ## Decoding: one word per constructor, written out from 30_encoding.md section 6 -/

theorem test_decode_startT : decode uartCfg 0b00010000000000000000000000101000#32 = .ok (.startT 40) := by rfl

theorem test_decode_startR : decode uartCfg 0b00011000000000001111111111111111#32 = .ok (.startR 65535) := by rfl

theorem test_decode_startX_endpoint :
    decode spiCfg 0b00010100001000000000000000000011#32 = .ok (.startX (some 2) 3) := by rfl

theorem test_decode_startX : decode spiCfg 0b00010000000000000000000000000011#32 = .ok (.startX none 3) := by rfl

theorem test_decode_status :
    decode uartCfg 0b00100000000000000000000000000000#32 = .ok .statusT ∧
      decode uartCfg 0b00101000000000000000000000000000#32 = .ok .statusR ∧
      decode spiCfg 0b00100000000000000000000000000000#32 = .ok .statusX := ⟨rfl, rfl, rfl⟩

theorem test_decode_ack :
    decode uartCfg 0b00110000000000000000000000000000#32 = .ok .ackT ∧
      decode uartCfg 0b00111000000000000000000000000000#32 = .ok .ackR ∧
      decode spiCfg 0b00110000000000000000000000000000#32 = .ok .ackX := ⟨rfl, rfl, rfl⟩

theorem test_decode_select : decode spiCfg 0b01000000001100000000000000000000#32 = .ok (.select 3) := by rfl

theorem test_decode_deselect : decode spiCfg 0b01010000000000000000000000000000#32 = .ok .deselect := by rfl

theorem test_decode_settmo :
    decode uartCfg 0b01100000000000000000000000000101#32 = .ok (.settmo false 5) ∧
      decode uartCfg 0b01100000000000011111111111111111#32 = .ok (.settmo true 65535) := ⟨rfl, rfl⟩

theorem test_decode_bufwr :
    decode uartCfg 0b01110000000000000011000111111111#32 = .ok (.bufwrT 49 0xFF) ∧
      decode spiCfg 0b01111000100000000000000100000010#32 = .ok (.bufwrR 0x8001 2) := ⟨rfl, rfl⟩

theorem test_decode_bufrd :
    decode spiCfg 0b10000000000000000011000100000000#32 = .ok (.bufrdT 49) ∧
      decode uartCfg 0b10001000000000000000000100000000#32 = .ok (.bufrdR 1) := ⟨rfl, rfl⟩

/-- The encoder writes the words of R78's table. -/
theorem test_encode :
    encode (.startX (some 2) 3) = 0x14200003#32 ∧ encode (.settmo true 0) = 0x60010000#32 ∧
      encode (.bufwrR 2 3) = 0x78000203#32 ∧ encode (.bufrdT 49) = 0x80003100#32 := by decide

/-- T-DEC-1 to T-DEC-6. -/
theorem test_illegal_1 :
    [0x00000000#32, 0x90000000#32, 0xF0000000#32, 0xFFFFFFFF#32, 0x10010005#32, 0x11000005#32, 0x14000003#32,
      0x10100003#32].map (answer uart) = List.replicate 8 (some 0x20000000#32) := by decide

/-- T-DEC-7, T-DEC-12, T-DEC-14, T-DEC-15 on UART. -/
theorem test_illegal_2 :
    [0x40000000#32, 0x50000000#32, 0x20000001#32, 0x30000100#32, 0x60020000#32, 0x71000000#32,
      0x80000001#32].map (answer uart) = List.replicate 7 (some 0x20000000#32) := by decide

/-- T-DEC-8 to T-DEC-11, T-DEC-13. -/
theorem test_illegal_3 :
    [0x18000003#32, 0x28000000#32, 0x38000000#32, 0x60000005#32, 0x10100003#32, 0x14400003#32, 0x40F00000#32,
      0x50000001#32, 0x40010000#32, 0x41000000#32].map (answer spi) = List.replicate 10 (some 0x20000000#32) := by
  decide

/-- T-DEC-16: ILLEGAL is checked before REJECTED. -/
theorem test_illegal_before_rejected : answer spi3 0x14400003#32 = some 0x20000000#32 := by decide

/-- The table's words as the host numbers them; START, STATUS and ACK words of both kinds read as UART's (log 7). -/
theorem test_decodeTableWord :
    decodeTableWord 32 0x10000028 = some (.startT 40) ∧ decodeTableWord 32 0x14200003 = some (.startX (some 2) 3) ∧
      decodeTableWord 32 0x40F00000 = some (.select 15) ∧ decodeTableWord 32 0x90000000 = none := by decide

/-- A placed word runs as the next step, on the instance it is meant for. -/
theorem test_withFetchWord :
    (view last (step (State.reset.withFetchWord 32 0x40100000))).join = some 0#32 ∧
      view (·.cs) (step (State.reset.withFetchWord 32 0x40100000)) = some (some 1) := by decide

/-! ## START -/

/-- T-ST-2. -/
theorem test_startT_chunk :
    view (fun t => (t.sT, t.txq.length, last t)) (exec (.startT 50) uart) =
      some (⟨.inProgress, 50, 16, 16, true⟩, 16, some 0#32) := by decide

/-- T-ST-6: only two places are left in TXQ. -/
theorem test_startT_behind_old_bytes :
    view (fun t => (t.sT, t.txq, t.req .t)) (exec (.startT 5) { uart with txq := bytes 14, txBuf := cells 0 3 }) =
      some (⟨.inProgress, 5, 2, 3, true⟩, bytes 14 ++ [1, 2], false) := by decide

/-- T-ST-7: stale bytes are the session's first. -/
theorem test_startR_stale :
    view (fun t => (t.sR, t.rxBuf, t.rxq, t.rxovf)) (exec (.startR 8) { uart with rxq := bytes 10, rxovf := true }) =
      some (⟨.finished, 8, 8, 0, false⟩, cells 0 8, [9, 10], false) := by decide

/-- T-ST-8: the budget is loaded. -/
theorem test_startR_budget :
    view (fun t => (t.sR, t.watch)) (exec (.startR 1) { uart with tmoReload := ⟨false, 0⟩ }) =
      some (⟨.inProgress, 1, 0, 1, true⟩, ⟨some 0, 0, 0, false⟩) := by decide

/-- T-ST-10, with fewer bytes. -/
theorem test_startX_endpoint :
    view (fun t => (t.cs, t.txq, t.sX)) (exec (.startX (some 3) 3) { spi with txBuf := cells 0 3 }) =
      some (some 3, bytes 3, ⟨.inProgress, 3, 0, 3, true⟩) := by decide

/-- T-ST-11: the capacity of a duplex session is the smaller buffer. -/
theorem test_startX_capacity :
    view last (exec (.startX none 31) (State.resetOf ⟨.spi, 16, 50, 30, 4⟩)) = some (some 0x10000000#32) := by decide

/-! ## STATUS -/

/-- T-SS-1, T-SS-3, T-SS-4, T-SS-5. -/
theorem test_statusT :
    answer uart 0x20000000#32 = some 4#32 ∧
      answer { withT uart done5 with txsh := some 0x41 } 0x20000000#32 = some 2#32 ∧
      answer (withT uart done5) 0x20000000#32 = some 6#32 ∧ answer (withT uart t40) 0x20000000#32 = some 1#32 := by decide

/-- T-LV-1 to T-LV-3: L0, L6, L2. -/
theorem test_statusR_keeps :
    view (fun t => (last t, t.watch)) (exec .statusR (watching 0 3 false 0 0)) = some (some 1#32, ⟨none, 0, 3, true⟩) ∧
      view (fun t => (last t, t.watch)) (exec .statusR (watching 4 0 true 0 3)) = some (some 1#32, ⟨none, 4, 0, true⟩) ∧
      view (fun t => (last t, t.watch)) (exec .statusR (watching 0 0 true 0 0)) =
        some (some 1#32, ⟨none, 0, 0, true⟩) := by decide

/-- T-LV-4 to T-LV-6: L3, L4, L5. -/
theorem test_statusR_ends :
    view (fun t => (last t, t.sR)) (exec .statusR (watching 4 0 true 4 0)) =
        some (some 3#32, ⟨.timedOut, 10, 4, 6, false⟩) ∧
      view (fun t => (last t, t.sR.st)) (exec .statusR (watching 4 2 true 4 2)) = some (some 3#32, .timedOut) ∧
      view (fun t => (last t, t.watch)) (exec .statusR (watching 4 5 true 4 2)) =
        some (some 1#32, ⟨none, 4, 5, true⟩) := by decide

/-- T-SS-6, T-SS-7. -/
theorem test_statusX :
    answer spi 0x20000000#32 = some 4#32 ∧ answer (withX spi done5) 0x20000000#32 = some 6#32 := by decide

/-! ## ACK -/

/-- T-AK-3; T-AK-1 and T-AK-2. -/
theorem test_ackT :
    view (fun t => (last t, t.sT)) (exec .ackT (withT uart done5)) = some (some 0#32, ⟨.idle, 5, 0, 0, false⟩) ∧
      answer uart 0x30000000#32 = some 0x10000000#32 ∧ answer (withT uart t40) 0x30000000#32 = some 0x10000000#32 := by
  decide

/-- T-AK-4. -/
theorem test_ackR :
    view (fun t => (last t, t.sR)) (exec .ackR (withR uart ⟨.timedOut, 10, 4, 6, false⟩)) =
      some (some 0#32, ⟨.idle, 10, 0, 6, false⟩) := by decide

/-- T-AK-5: the endpoint stays asserted. -/
theorem test_ackX :
    view (fun t => (last t, t.sX.st, t.cs)) (exec .ackX { withX spi done5 with cs := some 2 }) =
      some (some 0#32, .idle, some 2) := by decide

/-! ## SETTMO, SELECT, DESELECT -/

/-- T-TM-3. -/
theorem test_settmo_none :
    view (·.tmoReload) (step { uart with schedule := [.command 0x6001FFFF#32] }) = some ⟨true, 65535⟩ := by decide

/-- T-TM-4: the running budget does not change. -/
theorem test_settmo_running :
    view (fun t => (t.tmoReload, t.watch.tmo)) (exec (.settmo false 65535) (budgeted 3)) =
      some (⟨false, 65535⟩, some 3) := by decide

/-- T-CS-2, T-CS-3. -/
theorem test_select :
    view (fun t => (last t, t.cs)) (exec (.select 3) { spi with cs := some 1 }) = some (some 0#32, some 3) ∧
      view (fun t => (last t, t.cs)) (exec (.select 0) { spi3 with cs := some 3 }) =
        some (some 0x10000000#32, some 3) := by decide

/-- T-CS-4, T-CS-5. -/
theorem test_deselect :
    view (fun t => (last t, t.cs)) (exec .deselect { spi3 with cs := some 3 }) = some (some 0x10000000#32, some 3) ∧
      view (fun t => (last t, t.cs)) (exec .deselect { withX spi done5 with cs := some 3 }) =
        some (some 0#32, none) := by decide

/-! ## The buffer port -/

/-- T-BF-1, T-BF-3, T-BF-6. -/
theorem test_bufwrT :
    view (fun t => (last t, t.txBuf)) (exec (.bufwrT 49 0xFF) uart) = some (some 0#32, [(49, 0xFF)]) ∧
      answer uart 0x70003200#32 = some 0x10000000#32 ∧ answer (watching 0 0 false 0 0) 0x70000001#32 = some 0#32 := by
  decide

/-- A write between two listed bytes and over one; T-BF-4. -/
theorem test_bufwrR :
    view (·.rxBuf) (exec (.bufwrR 2 9) { uart with rxBuf := [(1, 5), (3, 6)] }) = some [(1, 5), (2, 9), (3, 6)] ∧
      view (·.rxBuf) (exec (.bufwrR 3 0) { uart with rxBuf := [(1, 5), (3, 6)] }) = some [(1, 5), (3, 0)] ∧
      answer uart 0x78FFFF00#32 = some 0x10000000#32 := by decide

/-- T-BF-2; T-BF-7. -/
theorem test_bufrdT :
    answer { uart with txBuf := [(49, 0xFF)] } 0x80003100#32 = some 0xFF#32 ∧
      answer spi3 0x80000000#32 = some 0x10000000#32 := by decide

/-- T-BF-8; T-BF-5. -/
theorem test_bufrdR :
    answer { withR uart done5 with rxBuf := cells 0 5 } 0x88000100#32 = some 2#32 ∧
      answer (watching 0 0 false 0 0) 0x88000000#32 = some 0x10000000#32 := by decide

/-! ## Events -/

/-- T-PU-3; T-PU-1. -/
theorem test_irqT :
    view (fun t => (t.sT, t.txq)) (execEvent .irqT
        { withT uart ⟨.inProgress, 40, 32, 8, true⟩ with txBuf := cells 32 8, txq := bytes 4 }) =
        some (⟨.finished, 40, 40, 0, false⟩, bytes 4 ++ bytes 8) ∧
      { withT uart t40 with txq := bytes 8 }.enabled .irqT = false := by decide

/-- T-PU-6; T-PU-4. -/
theorem test_irqR :
    view (fun t => (t.sR, t.rxBuf, t.rxq)) (execEvent .irqR
        { withR uart ⟨.inProgress, 20, 16, 4, true⟩ with rxq := bytes 6 }) =
        some (⟨.finished, 20, 20, 0, false⟩, cells 16 4, [5, 6]) ∧
      { withR uart ⟨.inProgress, 20, 0, 16, true⟩ with rxq := bytes 15 }.enabled .irqR = false := by decide

/-- T-PU-7, one chunk short of its end. -/
theorem test_irqX :
    view (fun t => (t.sX, t.rxBuf, t.txq, t.rxq)) (execEvent .irqX
        { withX spi ⟨.inProgress, 40, 16, 16, true⟩ with rxq := bytes 16, txBuf := cells 32 8 }) =
      some (⟨.inProgress, 40, 32, 8, true⟩, cells 16 16, bytes 8, []) := by decide

/-- T-SPI-3's last pump, in the shape of this file's session: it drains and finishes. -/
theorem test_irqX_finishes :
    view (fun t => (t.sX, t.rxBuf)) (execEvent .irqX spi3Back) = some (⟨.finished, 3, 3, 0, false⟩, cells 0 3) := by
  decide

/-- T-TK-1 to T-TK-3. -/
theorem test_tick :
    view (fun t => (t.watch.tmo, t.sR.st, t.sR.ie)) (execEvent .tick (budgeted 5)) = some (some 4, .inProgress, true) ∧
      view (fun t => (t.watch.tmo, t.sR.st, t.sR.ie)) (execEvent .tick (budgeted 1)) =
        some (some 0, .timedOut, false) ∧
      view (fun t => (t.watch.tmo, t.sR.st)) (execEvent .tick (budgeted 0)) = some (some (-1), .timedOut) := by decide

/-- T-CO-1, T-CO-2, T-CO-3. -/
theorem test_transmitter :
    view (fun t => (t.txq, t.txsh)) (execEvent .txLoad { uart with txq := [1, 2] }) = some ([2], some 1) ∧
      view (fun t => (t.wire, t.txsh)) (execEvent .txEmit { uart with txsh := some 1 }) = some ([.uart 1], none) ∧
      { uart with txsh := some 1, txq := [2] }.enabled .txLoad = false := by decide

/-- R150's example and its other branch. -/
theorem test_rxByte :
    view (fun t => (t.rxq, t.rxovf)) (execEvent (.rxByte 0x55) { uart with rxq := bytes 16 }) =
        some (bytes 16, true) ∧
      view (fun t => (t.rxq, t.rxovf)) (execEvent (.rxByte 0x55) uart) = some ([0x55], false) := by decide

/-- R152's example. -/
theorem test_xchg :
    view (fun t => (t.txq, t.rxq, t.wire)) (execEvent (.xchg 0xA5) { spi with cs := some 2, txq := [1] }) =
      some ([], [0xA5], [.spi (some 2) 1]) := by decide

/-! ## The assembler (R78 to R80) -/

theorem test_assemble_command :
    assemble "START.X 3, @2 ; three bytes" = some [.command 0x14200003#32] ∧
      assemble "SETTMO NONE" = some [.command 0x60010000#32] ∧ assemble "BUFWR.T 0x2, 3" = some [.command 0x70000203#32] ∧
      assemble "SELECT @16" = none := by decide

theorem test_assemble_pseudo :
    assemble "FILL.T 0, 1, 2" = some [.command 0x70000001#32, .command 0x70000102#32] ∧
      assemble "XFER 3, @2" = some [.command 0x14200003#32] ∧ assemble "NOTMO" = some [.command 0x60010000#32] ∧
      assemble "@RX_BYTE 0x55" = some [.event (.rxByte 0x55)] := by decide

/-- Lines 4 and 5 of program P3, with two repetitions. -/
theorem test_assemble_repeats :
    assembleProgram ["2 × (@TX_LOAD; @TX_EMIT)", "@IRQ_T"] =
      some [.event .txLoad, .event .txEmit, .event .txLoad, .event .txEmit, .event .irqT] := by decide

/-- A comment after a group (log 16), and an operand after one, which R78 has no place for. -/
theorem test_assemble_repeats_comment :
    assembleProgram ["2 × (@TICK) ; wait (long)"] = some [.event .tick, .event .tick] ∧
      assembleProgram ["2 × (@TICK) 5"] = none := by decide

/-! ## Witnesses: for each statement, values that meet its hypotheses together, clause by clause, at the boundaries -/

/-- The state with one agent step to come. -/
def chosen (s : State) (a : AgentStep) : State := { s with schedule := [a] }

theorem witness_ResetMeetsTheInvariant : uartCfg.wf ∧ (⟨.spi, 1, 1, 65535, 16⟩ : Config).wf := by decide

theorem witness_DecodeOfEncodeIsTheCommand :
    (Instr.startX (some 3) 65535).wf spiCfg = true ∧ (Instr.bufwrR 65535 255).wf uartCfg = true := by decide

theorem witness_EncodeOfDecodeIsTheWord : decode spiCfg 0x1430FFFF#32 = .ok (.startX (some 3) 65535) := by rfl

theorem witness_EveryWordIsATableRowOrIllegal :
    decode uartCfg 0x8800FF00#32 = .ok (.bufrdR 255) ∧ decode uartCfg 0x90000000#32 = .error .reservedOpcode := ⟨rfl, rfl⟩

/-- One word for each check, none of which fails an earlier check. -/
theorem witness_IllegalCausesAreCheckedInOrder :
    (ReservedOpcode 0x90000000#32) ∧
    (¬ ReservedOpcode 0x80000001#32 ∧ ReservedBit 0x80000001#32) ∧
    (¬ ReservedOpcode 0x18000003#32 ∧ ¬ ReservedBit 0x18000003#32 ∧ KindIllegal spiCfg.kind 0x18000003#32) ∧
    (¬ ReservedOpcode 0x40400000#32 ∧ ¬ ReservedBit 0x40400000#32 ∧ ¬ KindIllegal spiCfg.kind 0x40400000#32 ∧
      EndpointIllegal spiCfg 0x40400000#32) ∧
    (¬ ReservedOpcode 0x40300000#32 ∧ ¬ ReservedBit 0x40300000#32 ∧ ¬ KindIllegal spiCfg.kind 0x40300000#32 ∧
      ¬ EndpointIllegal spiCfg 0x40300000#32) := by
  have hk : spiCfg.kind = .spi := rfl
  rw [hk]
  unfold ReservedOpcode ReservedBit KindIllegal EndpointIllegal
  decide

theorem witness_IllegalWordsAnswerAndChangeNothing :
    ((chosen spi (.command 0#32)).takeAgentStep = (.command 0#32, spi) ∧ ReservedOpcode 0#32) ∧
    ((chosen spi (.command 0x50000001#32)).takeAgentStep = (.command 0x50000001#32, spi) ∧ ReservedBit 0x50000001#32) ∧
    ((chosen spi (.command 0x60000005#32)).takeAgentStep = (.command 0x60000005#32, spi) ∧
      KindIllegal spi.cfg.kind 0x60000005#32) ∧
    ((chosen spi (.command 0x14400003#32)).takeAgentStep = (.command 0x14400003#32, spi) ∧
      EndpointIllegal spi.cfg 0x14400003#32) := by
  refine ⟨⟨rfl, ?_⟩, ⟨rfl, ?_⟩, ⟨rfl, ?_⟩, ⟨rfl, ?_⟩⟩
  · unfold ReservedOpcode; decide
  · unfold ReservedBit; decide
  · simp [KindIllegal, spi, State.resetOf, spiCfg]
  · unfold EndpointIllegal; decide

theorem witness_StepRunsTheDecodedCommand :
    (chosen uart (.command 0x10000005#32)).takeAgentStep = (.command 0x10000005#32, uart) ∧
      decode (chosen uart (.command 0x10000005#32)).cfg 0x10000005#32 = .ok (.startT 5) := ⟨rfl, rfl⟩

theorem witness_StepFiresTheChosenEvent : (chosen uart (.event .tick)).takeAgentStep = (.event .tick, uart) := by rfl

theorem witness_AgentStepsComeFromScheduleOrDraw :
    (chosen uart (.event .tick)).schedule = .event .tick :: [] ∧ uart.schedule = [] := ⟨rfl, rfl⟩

theorem witness_DisabledEventTakesNoStep : uart.enabled .irqT = false ∧ spi.enabled (.xchg 0) = false := by decide

theorem witness_CommandOfAnotherInstanceIsIllegal :
    (Instr.startT 5).wf spi.cfg = false ∧ (Instr.startX (some 4) 5).wf spi.cfg = false := by decide

theorem witness_EveryCommandReturnsOneResponse : ∃ t, exec (.settmo false 5) uart = .next t := ⟨_, rfl⟩

/-- Busy or unacknowledged; length 0; one more than the capacity. -/
theorem witness_StartIsRejectedWithoutEffect :
    (uart.cfg.kind = .uart ∧ (withT uart done5).sT.st ≠ .idle ∧ (0 : BitVec 16).toNat = 0 ∧
      uart.cfg.nTx < (51 : BitVec 16).toNat) ∧
    ((withR uart (r10 0)).sR.st ≠ .idle ∧ uart.cfg.nRx < (51 : BitVec 16).toNat) ∧
    (spi.cfg.kind = .spi ∧ (∀ e, some (3 : Endpoint) = some e → e.toNat < spi.cfg.nEp) ∧ spi3.sX.st ≠ .idle ∧
      min spi.cfg.nTx spi.cfg.nRx < (51 : BitVec 16).toNat) := by
  decide

/-- At the shortest and the longest length. -/
theorem witness_StartTransmitPushesTheFirstChunk :
    (1 = (1 : BitVec 16).toNat ∧ 1 = min 1 (uart.cfg.fifoCap - uart.txq.length)) ∧
    (50 = (50 : BitVec 16).toNat ∧ 16 = min 50 (uart.cfg.fifoCap - uart.txq.length)) ∧
    uart.cfg.kind = .uart ∧ uart.sT.st = .idle ∧ 1 ≤ 50 ∧ 50 ≤ uart.cfg.nTx ∧ uart.txq.length ≤ uart.cfg.fifoCap := by
  decide

theorem witness_StartReceiveTakesWaitingBytes :
    50 = (50 : BitVec 16).toNat ∧ 3 = min 50 ({ uart with rxq := bytes 3 } : State).rxq.length ∧
      uart.cfg.kind = .uart ∧ uart.sR.st = .idle ∧ 1 ≤ 50 ∧ 50 ≤ uart.cfg.nRx := by decide

/-- With an endpoint and without; the chunk fills TXQ exactly. -/
theorem witness_StartSpiPrimesTheFirstChunk :
    50 = (50 : BitVec 16).toNat ∧ 0 = min 50 spi.rxq.length ∧ 16 = min (50 - 0) spi.cfg.fifoCap ∧
      spi.cfg.kind = .spi ∧ (∀ e, some (3 : Endpoint) = some e → e.toNat < spi.cfg.nEp) ∧
      (∀ e, (none : Option Endpoint) = some e → e.toNat < spi.cfg.nEp) ∧ spi.sX.st = .idle ∧ 1 ≤ 50 ∧
      50 ≤ min spi.cfg.nTx spi.cfg.nRx ∧ (16 = 0 ∨ spi.txq.length + 16 ≤ spi.cfg.fifoCap) := by decide

/-- One byte too many in TXQ: every condition of the fault holds. -/
theorem witness_StartSpiFaultsOnlyWithoutRoom :
    3 = (3 : BitVec 16).toNat ∧ 0 = min 3 spi.rxq.length ∧ 3 = min (3 - 0) spi.cfg.fifoCap ∧ spi.cfg.kind = .spi ∧
      (∀ e, (none : Option Endpoint) = some e → e.toNat < spi.cfg.nEp) ∧ spi.sX.st = .idle ∧ 1 ≤ 3 ∧
      3 ≤ min spi.cfg.nTx spi.cfg.nRx ∧ 0 < 3 ∧
      spi.cfg.fifoCap < ({ spi with txq := bytes 14 } : State).txq.length + 3 := by decide

theorem witness_StatusOfTransmitIsAPureRead : uart.cfg.kind = .uart ∧ spi.cfg.kind = .spi := by decide

theorem witness_StatusOfReceiveRunsTheLivenessCheck :
    uart.cfg.kind = .uart ∧ uart.sR.st ≠ .inProgress ∧ (watching 4 5 true 4 2).cfg.kind = .uart ∧
      (watching 4 5 true 4 2).sR.st = .inProgress := by decide

theorem witness_SecondStatusWithoutNewByteAborts :
    Inv (watching 0 1 false 0 0) ∧ (watching 0 1 false 0 0).cfg.kind = .uart ∧
      (watching 0 1 false 0 0).sR.st = .inProgress ∧
      1 ≤ (watching 0 1 false 0 0).sR.cur + (watching 0 1 false 0 0).rxq.length :=
  ⟨inv_of_check _ (by decide), by decide⟩

theorem witness_AcknowledgeReturnsATerminalSessionToIdle : uart.cfg.kind = .uart ∧ spi.cfg.kind = .spi := by decide

theorem witness_SecondAcknowledgeIsRejected :
    ((ackOf .t).wf uart.cfg = true ∧ ((withT uart done5).session .t).st = .finished) ∧
    ((ackOf .r).wf uart.cfg = true ∧ ((withR uart ⟨.timedOut, 10, 4, 6, false⟩).session .r).st = .timedOut) ∧
    ((ackOf .x).wf spi.cfg = true ∧ ((withX spi done5).session .x).st = .finished) := by decide

theorem witness_SettmoWritesTheReloadRegister : (budgeted 3).cfg.kind = .uart := by decide

theorem witness_SelectDrivesTheEndpoint : spi.cfg.kind = .spi ∧ (3 : Endpoint).toNat < spi.cfg.nEp := by decide

theorem witness_DeselectReleasesTheEndpoint : spi3.cfg.kind = .spi := by decide

/-- Busy on either kind; the first index outside; the last inside. -/
theorem witness_BufferWriteStoresOneByte :
    (BusyTx (withT uart t40) ∧ BusyTx spi3 ∧ uart.cfg.nTx ≤ (50 : BitVec 16).toNat) ∧
    (BusyRx (watching 0 0 false 0 0) ∧ BusyRx spi3 ∧ uart.cfg.nRx ≤ (50 : BitVec 16).toNat) ∧
    (¬ BusyTx (watching 0 0 false 0 0) ∧ (49 : BitVec 16).toNat < uart.cfg.nTx) ∧
    (¬ BusyRx (withT uart t40) ∧ (49 : BitVec 16).toNat < uart.cfg.nRx) := by
  unfold BusyTx BusyRx
  decide

theorem witness_BufferReadAnswersTheByte :
    (BusyTx spi3 ∧ uart.cfg.nTx ≤ (65535 : BitVec 16).toNat) ∧ (BusyRx spi3 ∧ uart.cfg.nRx ≤ (50 : BitVec 16).toNat) ∧
    (¬ BusyTx uart ∧ (0 : BitVec 16).toNat < uart.cfg.nTx) ∧ (¬ BusyRx uart ∧ (49 : BitVec 16).toNat < uart.cfg.nRx) := by
  unfold BusyTx BusyRx
  decide

/-- The budgets on either side of expiry. -/
theorem witness_TickCountsTheBudgetDown :
    ((budgeted 2).cfg.kind = .uart ∧ (budgeted 2).sR.st = .inProgress ∧ (budgeted 2).watch.tmo = some 2 ∧
      (0 : Int) < 2 - 1) ∧
    ((budgeted 1).cfg.kind = .uart ∧ (budgeted 1).sR.st = .inProgress ∧ (budgeted 1).watch.tmo = some 1 ∧
      (1 : Int) - 1 ≤ 0) ∧
    (spi.cfg.kind = .spi ∧ (withR uart done5).sR.st ≠ .inProgress ∧ (watching 0 0 false 0 0).watch.tmo = none) := by
  decide

theorem witness_TransmitterShiftsInOrder :
    uart.cfg.kind = .uart ∧ (({ uart with txq := [1, 2] } : State).txsh = none ∧
      ({ uart with txq := [1, 2] } : State).txq = 1 :: [2]) ∧ ({ uart with txsh := some 1 } : State).txsh = some 1 := by
  decide

/-- The last free place, and none. -/
theorem witness_ArrivingByteIsQueuedOrLost :
    uart.cfg.kind = .uart ∧ ({ uart with rxq := bytes 15 } : State).rxq.length < uart.cfg.fifoCap ∧
      uart.cfg.fifoCap ≤ ({ uart with rxq := bytes 16 } : State).rxq.length := by decide

theorem witness_ExchangeSendsOneByteAndReceivesOne :
    spi3.cfg.kind = .spi ∧ spi3.txq = 1 :: [2, 3] ∧ spi3.rxq.length < spi3.cfg.fifoCap ∧
      spi3.cfg.fifoCap ≤ ({ spi3 with rxq := bytes 16 } : State).rxq.length := by decide

/-- Room for exactly the chunk. -/
theorem witness_TransmitInterruptRefills :
    16 = min (t40.len - t40.cur) (uart.cfg.fifoCap - (withT uart t40).txq.length) ∧ uart.cfg.kind = .uart ∧
      (withT uart t40).req .t = true ∧ t40.st = .inProgress ∧ t40.cur ≤ t40.len ∧ t40.len ≤ uart.cfg.nTx ∧
      (withT uart t40).txq.length ≤ uart.cfg.fifoCap := by decide

/-- More bytes waiting than the session takes (T-PU-6). -/
theorem witness_ReceiveInterruptDrains :
    4 = min (20 - 16) (bytes 6).length ∧ uart.cfg.kind = .uart ∧
      ({ withR uart ⟨.inProgress, 20, 16, 4, true⟩ with rxq := bytes 6 } : State).req .r = true ∧ 16 ≤ 20 ∧
      20 ≤ uart.cfg.nRx := by decide

/-- A chunk that is not the last (T-PU-7), and the last. -/
theorem witness_SpiInterruptDrainsThenFills :
    (16 = min (40 - 16) (bytes 16).length ∧ 8 = min (40 - (16 + 16)) spi.cfg.fifoCap ∧ spi.cfg.kind = .spi ∧
      ({ withX spi ⟨.inProgress, 40, 16, 16, true⟩ with rxq := bytes 16 } : State).req .x = true ∧
      40 ≤ min spi.cfg.nTx spi.cfg.nRx ∧ spi.txq.length + 8 ≤ spi.cfg.fifoCap) ∧
    (3 = min (3 - 0) spi3Back.rxq.length ∧ 0 = min (3 - (0 + 3)) spi.cfg.fifoCap ∧ spi3Back.req .x = true ∧
      (0 = 0 ∨ spi3Back.txq.length + 0 ≤ spi.cfg.fifoCap)) := by decide

theorem witness_EveryPumpEndsWithTheEpilogue :
    ((withT uart t40).session .t).st = .inProgress ∧
      ((withT uart t40).session .t).cur ≤ ((withT uart t40).session .t).len ∧
      ∃ t, (withT uart t40).pump .t = .ok t := ⟨rfl, by decide, _, rfl⟩

theorem witness_InterruptRunsThePumpAndFalls :
    (Inv uart ∧ (uart.session .t).ie = false) ∧ (Inv (withT uart t40) ∧ (withT uart t40).enabled (irqOf .t) = true) ∧
      (Inv spi3Back ∧ spi3Back.enabled (irqOf .x) = true) :=
  ⟨⟨inv_of_check _ (by decide), by decide⟩, ⟨inv_of_check _ (by decide), by decide⟩,
    ⟨inv_of_check _ (by decide), by decide⟩⟩

theorem witness_EveryStepKeepsTheInvariant :
    Inv (chosen spi3Back (.event .irqX)) ∧ ∃ t, step (chosen spi3Back (.event .irqX)) = .next t :=
  ⟨inv_of_check _ (by decide), _, rfl⟩

theorem witness_EveryStepCompletes : Inv (chosen (budgeted 1) (.event .tick)) := inv_of_check _ (by decide)

theorem witness_ReachableSessionsMeetTheirInvariants :
    uartCfg.wf ∧ ∃ t, Host.Core.run Sys2Proof.core 2
      { State.resetOf uartCfg with schedule := [.command 0x18000001#32, .event (.rxByte 7)] } = .next t :=
  ⟨by decide, _, rfl⟩

theorem witness_ReachableSpiFifosHoldOneChunk :
    spiCfg.wf ∧ spiCfg.kind = .spi ∧ ∃ t, Host.Core.run Sys2Proof.core 2
      { State.resetOf spiCfg with schedule := [.command 0x10000003#32, .event (.xchg 7)] } = .next t :=
  ⟨by decide, rfl, _, rfl⟩

theorem witness_ReachableBudgetsStayInRange :
    uartCfg.wf ∧ ∃ t : State, Host.Core.run Sys2Proof.core 2
      { State.resetOf uartCfg with schedule := [.command 0x60000000#32, .command 0x18000001#32] } = .next t ∧
      t.watch.tmo = some 0 :=
  ⟨by decide, _, rfl, rfl⟩

theorem witness_NoRunFromResetStops : spiCfg.wf := by decide

theorem witness_OnlyTheListedTransitionsHappen :
    Inv (chosen (budgeted 1) (.event .tick)) ∧ ∃ t, step (chosen (budgeted 1) (.event .tick)) = .next t :=
  ⟨inv_of_check _ (by decide), _, rfl⟩

theorem witness_CursorOnlyAdvances :
    Inv (chosen spi3Back (.event .irqX)) ∧ ((chosen spi3Back (.event .irqX)).session .x).st = .inProgress ∧
      ∃ t, step (chosen spi3Back (.event .irqX)) = .next t :=
  ⟨inv_of_check _ (by decide), rfl, _, rfl⟩

theorem witness_ChipSelectIsHeldDuringATransfer :
    ({ spi with cs := some 3 } : State).chipSelect 3 = true ∧ Inv (chosen spi3 (.command 0x40000000#32)) ∧
      (chosen spi3 (.command 0x40000000#32)).cfg.kind = .spi ∧
      (chosen spi3 (.command 0x40000000#32)).sX.st = .inProgress ∧
      ∃ t, step (chosen spi3 (.command 0x40000000#32)) = .next t :=
  ⟨by decide, inv_of_check _ (by decide), rfl, rfl, _, rfl⟩

theorem witness_BuffersAreWrittenOnlyByTheirWriters : ∃ t, step (chosen uart (.command 0x70000001#32)) = .next t :=
  ⟨_, rfl⟩

theorem witness_HostCannotWriteABusyBuffer :
    Inv (chosen spi3 (.command 0x78000001#32)) ∧
      (chosen spi3 (.command 0x78000001#32)).takeAgentStep.1 = .command 0x78000001#32 ∧
      ((chosen spi3 (.command 0x78000001#32)).session ((chosen spi3 (.command 0x78000001#32)).owner .rx)).st =
        .inProgress ∧ ∃ t, step (chosen spi3 (.command 0x78000001#32)) = .next t :=
  ⟨inv_of_check _ (by decide), rfl, rfl, _, rfl⟩

theorem witness_UartHalvesAreIndependent :
    uart.cfg.kind = .uart ∧ (isStartOf .t (.startT 5) ∧ ∃ t, exec (.startT 5) uart = .next t) ∧
      (isStartOf .r (.startR 5) ∧ ∃ t, exec (.startR 5) uart = .next t) ∧
      (∃ t, execEvent .irqT (withT uart t40) = .next t) ∧ ∃ t, execEvent .irqR (withR uart (r10 0)) = .next t :=
  ⟨rfl, ⟨⟨_, rfl⟩, _, rfl⟩, ⟨⟨_, rfl⟩, _, rfl⟩, ⟨_, rfl⟩, _, rfl⟩

theorem witness_QueuedBytesAreAlwaysEmittedInOrder :
    Inv (chosen spi3 (.event (.xchg 9))) ∧ ∃ t, step (chosen spi3 (.event (.xchg 9))) = .next t :=
  ⟨inv_of_check _ (by decide), _, rfl⟩

/-- A session whose 16 first bytes are in TXQ, behind one byte in the shift register. -/
def sending : State :=
  { withT uart ⟨.inProgress, 20, 16, 4, true⟩ with txBuf := cells 0 20, txq := bytes 16, txsh := some 9 }

theorem witness_TransmitSessionSendsTheBufferInOrder :
    (uart.cfg.kind = .uart ∧ uart.sT.st = .idle ∧ ∃ t, exec (.startT 5) uart = .next t ∧ t.sT.st ≠ .idle) ∧
    (Inv (chosen sending (.event .txEmit)) ∧ sending.cfg.kind = .uart ∧ sending.sT.st = .inProgress ∧
      (chosen sending (.event .txEmit)).outStream =
        [9] ++ (chosen sending (.event .txEmit)).bytesAt .tx 0 (chosen sending (.event .txEmit)).sT.cur ∧
      ∃ t, step (chosen sending (.event .txEmit)) = .next t) :=
  ⟨⟨rfl, rfl, _, rfl, by decide⟩, inv_of_check _ (by decide), rfl, rfl, by decide, _, rfl⟩

/-- The state of the loopback witness: one byte back, two to go, the next exchange chosen. -/
def echoing : State := chosen { spi3 with txq := [2, 3], rxq := [1] } (.event (.xchg 2))

theorem witness_LoopbackSessionReturnsWhatItSent :
    (Inv spi ∧ spi.cfg.kind = .spi ∧ spi.sX.st = .idle ∧
      ∃ t, exec (.startX none 3) spi = .next t ∧ t.sX.st ≠ .idle) ∧
    (Inv echoing ∧ echoing.cfg.kind = .spi ∧ echoing.sX.st = .inProgress ∧ EchoSoFar echoing ∧ LoopbackStep echoing ∧
      ∃ t, step echoing = .next t) := by
  refine ⟨⟨inv_of_check _ (by decide), rfl, rfl, _, rfl, by decide⟩, inv_of_check _ (by decide), rfl, rfl, ⟨?_, by decide⟩,
    ?_, _, rfl⟩
  · exact fun i hi => absurd hi (Nat.not_lt_zero i)
  · intro r hr
    obtain rfl : 2 = r := by simpa [echoing, chosen, State.takeAgentStep] using hr
    rfl

theorem witness_SessionsTakeOneInterruptPerChunk :
    (Inv (chosen (withT uart t40) (.event .irqT)) ∧ ((withT uart t40).session .t).st = .inProgress ∧
      (chosen (withT uart t40) (.event .irqT)).takeAgentStep.1 = .event (irqOf .t) ∧
      (chosen (withT uart t40) (.event .irqT)).enabled (irqOf .t) = true ∧
      ∃ t, step (chosen (withT uart t40) (.event .irqT)) = .next t) ∧
    (Inv (chosen sending (.event .irqT)) ∧ ((chosen sending (.event .irqT)).session .t).st = .inProgress ∧
      (chosen sending (.event .irqT)).enabled (irqOf .t) = false ∧
      ∃ t, step (chosen sending (.event .irqT)) = .next t) ∧
    (Inv uart ∧ uart.cfg.kind = .uart ∧ uart.sT.st = .idle ∧ uart.txq = [] ∧
      ∃ t, exec (.startT 40) uart = .next t ∧ t.sT.st ≠ .idle) ∧
    (uart.sR.st = .idle ∧ uart.rxq = [] ∧ ∃ t, exec (.startR 40) uart = .next t ∧ t.sR.st ≠ .idle) ∧
    (Inv spi ∧ spi.cfg.kind = .spi ∧ spi.sX.st = .idle ∧ ∃ t, exec (.startX none 40) spi = .next t ∧ t.sX.st ≠ .idle) :=
  ⟨⟨inv_of_check _ (by decide), rfl, rfl, by decide, _, rfl⟩, ⟨inv_of_check _ (by decide), rfl, by decide, _, rfl⟩,
    ⟨inv_of_check _ (by decide), rfl, rfl, rfl, _, rfl, by decide⟩, ⟨rfl, rfl, _, rfl, by decide⟩, ⟨inv_of_check _ (by decide), rfl, rfl, _, rfl, by decide⟩⟩

/-- Fewer ticks than the budget, and as many with the last one last; budgets 1 and 0. -/
theorem witness_BudgetExpiresAtExactlyItsLastTick :
    (Inv (budgeted 1) ∧ (budgeted 1).cfg.kind = .uart ∧ (budgeted 1).sR.st = .inProgress ∧ (budgeted 1).sR.cur = 0 ∧
      (budgeted 1).rxq = [] ∧ (budgeted 1).watch.tmo = some ((1 : Nat) : Int) ∧
      (∀ b, AgentStep.event (.rxByte b) ∉ (budgeted 1).schedule) ∧
      (budgeted 1).schedule.count (.event .tick) < max 1 1) ∧
    (Inv (chosen (budgeted 0) (.event .tick)) ∧ (budgeted 0).watch.tmo = some ((0 : Nat) : Int) ∧
      (∀ b, AgentStep.event (.rxByte b) ∉ (chosen (budgeted 0) (.event .tick)).schedule) ∧
      (chosen (budgeted 0) (.event .tick)).schedule.count (.event .tick) = max 0 1 ∧
      (chosen (budgeted 0) (.event .tick)).schedule.getLast? = some (.event .tick)) := by
  refine ⟨⟨inv_of_check _ (by decide), rfl, rfl, rfl, rfl, rfl, ?_, by decide⟩, inv_of_check _ (by decide), rfl, ?_,
    by decide, by decide⟩
  · intro b hb
    exact absurd hb (List.not_mem_nil)
  · intro b hb
    simp [chosen] at hb

theorem witness_SpiFinishedIsFlushed :
    Inv (withX spi done5) ∧ (withX spi done5).cfg.kind = .spi ∧ (withX spi done5).sX.st = .finished :=
  ⟨inv_of_check _ (by decide), rfl, rfl⟩

end Sys2Proof.Tests
end

/-! SUPPORT. What a step can do to one session, said once, and the four statements about the session registers
(spec/10_state.md R27, R29, R30, R31, R34): reset, the pure STATUS reads, the transitions of `st`, and the invariants of
every reachable state. -/

namespace Sys2Proof.Machine

/-! ## The session invariant gives R30 and R31 -/

/-- A session after reset meets the session invariant, whatever its capacity. -/
theorem sessionInv_reset (cap fifoCap : Nat) : SessionInv Session.reset cap fifoCap := by
  constructor <;> simp [Session.reset]

theorem SessionInv.cursorInvariant {f : Session} {cap fifoCap : Nat} (h : SessionInv f cap fifoCap) :
    CursorInvariant f := by
  have hle := h.cur_le
  have hfin := h.finished
  refine ⟨fun _ => hle, h.idle, hfin, fun hst => Nat.lt_of_le_of_ne hle fun heq => ?_⟩
  rcases hst with hst | hst <;> simp [hst, heq] at hfin

theorem SessionInv.enableInvariant {f : Session} {cap fifoCap : Nat} (h : SessionInv f cap fifoCap)
    (hcap : 1 ≤ fifoCap) : EnableInvariant f := by
  refine ⟨fun hie => ?_, h.ie.2⟩
  have hst := h.ie.1 hie
  have hlt := h.cursorInvariant.2.2.2 (.inl hst)
  have hthr := h.thr hst
  exact ⟨hst, by omega⟩

@[simp] theorem resetOf_session (c : Config) (id : SessionId) : (State.resetOf c).session id = Session.reset := by
  cases id <;> rfl

/-- Settles O1: every session after reset is `Session.reset`, and that session meets the session invariant. -/
theorem resetGivesEveryRegisterItsValue : Obligations.ResetGivesEveryRegisterItsValue := by
  intro c
  refine ⟨fun id => ?_, rfl, rfl, rfl, rfl, rfl, rfl, rfl, fun id => ?_⟩ <;> rw [resetOf_session]
  · exact ⟨rfl, rfl, rfl, rfl, rfl⟩
  · have h := sessionInv_reset 0 1
    exact ⟨h.cursorInvariant, h.enableInvariant (Nat.le_refl 1)⟩

/-! ## STATUS of a transmit or an SPI session -/

/-- The word 0x20000000 is the STATUS row with D = 0: no reserved bit is set, and the `KIND` selects the command. -/
theorem decode_statusWord (c : Config) :
    decode c 0x20000000#32 = .ok (match c.kind with | .uart => .statusT | .spi => .statusX) := by
  have hop : (Word.op 0x20000000#32).toNat = 2 := by decide
  have hd : Word.d 0x20000000#32 = false := by decide
  have hr : Word.reservedBitSet 0x20000000#32 = false := by decide
  simp only [decode, hr, decodeOp, hop, decodeBySession, hd]
  cases c.kind <;> rfl

/-- The response word of STATUS as a number: TXF in bit 2 above the status code (R75, R76). -/
theorem reportStatus_eq (s : State) (id : SessionId) :
    s.reportStatus id = answered s (BitVec.ofNat 32
      ((if s.txf id = true then 4 else 0) + statusNumber (s.session id).st)) := by
  have hword : ∀ (b : Bool) (st : Status), responseWord .ok ((BitVec.ofBool b ++ st.code).setWidth 28) =
      BitVec.ofNat 32 ((if b = true then 4 else 0) + statusNumber st) := by
    intro b st
    cases b <;> cases st <;> rfl
  simp only [State.reportStatus, State.respond, State.statusPayload, hword]

theorem txf_t_iff (s : State) : s.txf .t = true ↔ s.sT.st ≠ .inProgress ∧ s.txq = [] ∧ s.txsh = none := by
  simp [State.txf, and_assoc]

theorem txf_x_iff (s : State) : s.txf .x = true ↔ s.sX.st ≠ .inProgress ∧ s.txq = [] := by
  simp [State.txf]

/-- Settles O23: the response word is `reportStatus_eq`, and TXF is the predicate of R27. -/
theorem statusOfTransmitIsAPureRead : Obligations.StatusOfTransmitIsAPureRead := by
  intro s
  refine ⟨fun hk => ⟨by rw [decode_statusWord, hk], ?_⟩, fun hk => ⟨by rw [decode_statusWord, hk], ?_⟩⟩
  · simp only [exec, execStatusT, onKind, hk, if_true, reportStatus_eq, txf_t_iff, session_t]
  · simp only [exec, execStatusX, onKind, hk, if_true, reportStatus_eq, txf_x_iff, session_x]

/-! ## What each update does to the sessions -/

@[simp] theorem rejected_session (s : State) (id : SessionId) : s.rejected.session id = s.session id :=
  respond_session s _ _ id

@[simp] theorem illegal_session (s : State) (id : SessionId) : s.illegal.session id = s.session id :=
  respond_session s _ _ id

@[simp] theorem reportStatus_session (s : State) (id id' : SessionId) :
    (s.reportStatus id).session id' = s.session id' :=
  respond_session s _ _ id'

@[simp] theorem driveSelect_session (s : State) (cs : Option Endpoint) (id : SessionId) :
    (s.driveSelect cs).session id = s.session id := by
  unfold State.driveSelect
  split <;> simp

@[simp] theorem txEmit_session (s : State) (id : SessionId) : s.txEmit.session id = s.session id := by
  unfold State.txEmit
  split <;> simp

theorem arrive_session (s t : State) (b : Byte) (h : s.arrive b = .ok t) (id : SessionId) :
    t.session id = s.session id := by
  rw [arrive_eq] at h
  obtain rfl := Except.ok.inj h
  split <;> simp

/-- A pump moves some bytes of its own session and runs the epilogue on it; the other sessions stay (R81, R82). A pump
that receives moves no more than RXQ holds. -/
theorem pump_session (s t : State) (id : SessionId) (h : s.pump id = .ok t) :
    ∃ m, m ≤ (s.session id).len - (s.session id).cur ∧ (id = .x → m ≤ s.rxq.length) ∧
      t.session id = ((s.session id).moved m).epilogue s.cfg.fifoCap ∧
      ∀ id', id' ≠ id → t.session id' = s.session id' := by
  cases id with
  | t =>
    obtain rfl := pump_t_cases s t h
    exact ⟨s.fillCount, Nat.min_le_left .., nofun, by simp, fun id' hid => by simp [hid]⟩
  | r =>
    obtain rfl := pump_r_cases s t h
    exact ⟨s.drainCount .r, Nat.min_le_left .., nofun, by simp, fun id' hid => by simp [hid]⟩
  | x =>
    obtain rfl := pump_x_cases s t h
    exact ⟨s.drainCount .x, Nat.min_le_left .., fun _ => Nat.min_le_right .., by simp [State.pumpedX],
      fun id' hid => by simp [State.pumpedX, hid]⟩

/-! ## The changes a command can make to a session -/

/-- `S.st` ends with a terminal status and the interrupt disabled, on a session's fields (R98, R101). -/
def Session.ended (f : Session) (st : Status) : Session := { f with st := st, ie := false }

/-- The fields of an acknowledged session (R117). -/
def Session.acknowledged (f : Session) : Session := { f with st := .idle, cur := 0 }

/-- What the command `i`, run from `s`, can make of the fields of session `id`. -/
inductive CommandChange (i : Instr) (s : State) (id : SessionId) (g : Session) : Prop where
  /-- the command does not write the session -/
  | kept (h : g = s.session id)
  /-- its START was accepted with length `n`, and the first pump moved `m` bytes (R109 to R112) -/
  | started (n m : Nat) (cmd : isStartOf id i) (idle : (s.session id).st = .idle) (pos : 1 ≤ n)
      (fits : n ≤ s.capacity id) (moved : m ≤ n) (spi : id = .x → s.cfg.kind = .spi ∧ m ≤ s.rxq.length)
      (h : g = (((s.session id).opened n).moved m).epilogue s.cfg.fifoCap)
  /-- STATUS.R's liveness check ended S_R: TimedOut, or Finished by branch L1 (R101, R116) -/
  | checked (st : Status) (cmd : i = .statusR) (recv : id = .r) (busy : (s.session id).st = .inProgress)
      (ending : st = .timedOut ∨ st = .finished ∧ (s.session id).cur = (s.session id).len)
      (h : g = (s.session id).ended st)
  /-- its ACK was accepted (R117) -/
  | acked (cmd : i = ackOf id) (done : (s.session id).st = .finished ∨ (s.session id).st = .timedOut)
      (h : g = (s.session id).acknowledged)

/-- An accepted START runs its session's pump from a state in which that session is open and all else that the pump's
effect on sessions depends on is as before (R110 to R112). -/
structure StartsFrom (s p : State) (id : SessionId) (n : Nat) : Prop where
  session : p.session id = (s.session id).opened n
  others : ∀ id', id' ≠ id → p.session id' = s.session id'
  cfg : p.cfg = s.cfg
  rxq : p.rxq = s.rxq

/-- START of session `k` changes that session alone, where its body is the pump of the opened session. -/
theorem startSession_change (i : Instr) (k : SessionId) {s t p : State} {n : Nat}
    {body : State → Except Fault State} (cmd : isStartOf k i) (hspi : k = .x → s.cfg.kind = .spi)
    (hbody : body s = p.pump k) (hp : StartsFrom s p k n) (h : startSession k n body s = .next t) (id : SessionId) :
    CommandChange i s id (t.session id) := by
  rcases startSession_cases k n body s t h with rfl | ⟨idle, pos, fits, u, hu, rfl⟩
  · exact .kept (by simp)
  · obtain ⟨m, hm, hx, hk, hothers⟩ := pump_session p u k (hbody ▸ hu)
    by_cases hid : id = k
    · subst hid
      refine .started n m cmd idle pos fits ?_ (fun e => ⟨hspi e, hp.rxq ▸ hx e⟩) ?_
      · simpa [hp.session] using hm
      · rw [respond_session, hk, hp.session, hp.cfg]
    · exact .kept (by rw [respond_session, hothers id hid, hp.others id hid])

theorem startsFrom_openSession (s p : State) (id : SessionId) (n : Nat) (hs : ∀ id', p.session id' = s.session id')
    (hcfg : p.cfg = s.cfg) (hrxq : p.rxq = s.rxq) : StartsFrom s (p.openSession id n) id n :=
  ⟨by simp [hs], fun id' hid => by simp [State.openSession, hid, hs], by simp [hcfg], by simp [hrxq]⟩

theorem StartsFrom.loadWatch {s p : State} {id : SessionId} {n : Nat} (h : StartsFrom s p id n) :
    StartsFrom s p.loadWatch id n :=
  ⟨by simp [h.session], fun id' hid => by simp [h.others id' hid], by simp [h.cfg], by simp [h.rxq]⟩

theorem acknowledge_change (s : State) (k id : SessionId) :
    CommandChange (ackOf k) s id ((s.acknowledge k).session id) := by
  unfold State.acknowledge
  split
  · next done =>
    by_cases hid : id = k
    · subst hid
      exact .acked rfl done (by simp [Session.acknowledged])
    · exact .kept (by simp [hid])
  · exact .kept (by simp)

/-- The liveness check writes S_R's status and enable, or no session at all (R101). -/
theorem livenessCheck_change (s : State) (busy : s.sR.st = .inProgress) (id : SessionId) :
    CommandChange .statusR s id (s.livenessCheck.session id) := by
  have ends : ∀ st, st = .timedOut ∨ st = .finished ∧ s.sR.cur = s.sR.len →
      CommandChange .statusR s id ((s.endReceive st).session id) := by
    intro st hst
    by_cases hid : id = .r
    · subst hid
      exact .checked st rfl rfl busy hst rfl
    · exact .kept (by simp [State.endReceive, hid])
  rcases livenessCheck_cases s with h | ⟨h, -⟩ | ⟨h, hlen⟩ <;> rw [h]
  · exact .kept (by simp)
  · exact ends .timedOut (.inl rfl)
  · exact ends .finished (.inr ⟨rfl, hlen⟩)

/-- What holds of the ILLEGAL answer and of the body's next state holds of a command that only one `KIND` has (R70). -/
theorem of_onKind {P : State → Prop} {k : Kind} {s : State} {o : Host.Outcome State Fault Refusal}
    (ill : P s.illegal) (ho : s.cfg.kind = k → ∀ t, o = .next t → P t) (t : State) (h : onKind k s o = .next t) :
    P t := by
  rcases (onKind_eq_next k s t o).1 h with ⟨hk, h⟩ | ⟨-, rfl⟩
  · exact ho hk t h
  · exact ill

/-- The same where the body always answers. -/
theorem of_onKind_next {P : State → Prop} {k : Kind} {s u : State} (ill : P s.illegal) (hu : P u) (t : State)
    (h : onKind k s (.next u) = .next t) : P t :=
  of_onKind ill (fun _ _ h => Host.Outcome.next.inj h ▸ hu) t h

/-- What holds of the ILLEGAL answer and of the body's next state holds of a command with an endpoint operand (R71). -/
theorem of_onEndpoint {P : State → Prop} {e : Endpoint} {s : State} {o : Host.Outcome State Fault Refusal}
    (ill : P s.illegal) (ho : ∀ t, o = .next t → P t) (t : State) (h : onEndpoint e s o = .next t) : P t := by
  rcases (onEndpoint_eq_next e s t o).1 h with ⟨-, h⟩ | ⟨-, rfl⟩
  · exact ho t h
  · exact ill

/-- START.X, whose endpoint is in range or absent (R112, R113). -/
theorem startX_change {s t : State} {ep : Option Endpoint} {len : BitVec 16} (hk : s.cfg.kind = .spi)
    (h : startSession .x len.toNat (startBodyX ep len.toNat) s = .next t) (id : SessionId) :
    CommandChange (.startX ep len) s id (t.session id) :=
  startSession_change (.startX ep len) .x ⟨ep, len, rfl⟩ (fun _ => hk) rfl
    (startsFrom_openSession s _ .x _ (by simp) (by simp) (by simp)) h id

theorem writeBuffer_change {i : Instr} {B : Buf} {k : Nat} {v : Byte} {s t : State}
    (h : writeBuffer B k v s = .next t) (id : SessionId) : CommandChange i s id (t.session id) := by
  rcases writeBuffer_cases B k v s t h with rfl | ⟨-, -, rfl⟩ <;> exact .kept (by simp)

theorem readBuffer_change {i : Instr} {B : Buf} {k : Nat} {s t : State}
    (h : readBuffer B k s = .next t) (id : SessionId) : CommandChange i s id (t.session id) := by
  rcases readBuffer_cases B k s t h with rfl | ⟨-, -, rfl⟩ <;> exact .kept (by simp)

/-- What any command can do to a session. -/
theorem exec_change (i : Instr) (s t : State) (h : exec i s = .next t) (id : SessionId) :
    CommandChange i s id (t.session id) := by
  have ill : CommandChange i s id (s.illegal.session id) := .kept (by simp)
  revert t
  cases i with
  | startT len =>
    exact of_onKind ill fun _ t h => startSession_change (.startT len) .t ⟨len, rfl⟩ nofun rfl
      (startsFrom_openSession s s .t _ (by simp) rfl rfl) h id
  | startR len =>
    exact of_onKind ill fun _ t h => startSession_change (.startR len) .r ⟨len, rfl⟩ nofun rfl
      (startsFrom_openSession s (s.setOverflow false) .r _ (by simp) rfl rfl).loadWatch h id
  | startX ep len =>
    refine of_onKind ill fun hk => ?_
    cases ep with
    | none => exact fun t h => startX_change hk h id
    | some e => exact of_onEndpoint ill fun t h => startX_change hk h id
  | statusT => exact of_onKind_next ill (.kept (by simp))
  | statusR =>
    refine of_onKind_next ill ?_
    rw [reportStatus_session]
    split
    · next busy => exact livenessCheck_change s busy id
    · exact .kept rfl
  | statusX => exact of_onKind_next ill (.kept (by simp))
  | ackT => exact of_onKind_next ill (acknowledge_change s .t id)
  | ackR => exact of_onKind_next ill (acknowledge_change s .r id)
  | ackX => exact of_onKind_next ill (acknowledge_change s .x id)
  | select e =>
    refine of_onKind ill fun _ => of_onEndpoint ill fun t h => ?_
    exact Host.Outcome.next.inj h ▸ .kept (by simp)
  | deselect => exact of_onKind_next ill (.kept (by simp))
  | settmo nt tmo => exact of_onKind_next ill (.kept (by simp))
  | bufwrT idx data => exact fun t h => writeBuffer_change h id
  | bufwrR idx data => exact fun t h => writeBuffer_change h id
  | bufrdT idx => exact fun t h => readBuffer_change h id
  | bufrdR idx => exact fun t h => readBuffer_change h id

/-! ## The changes an event can make to a session -/

/-- What the event `e`, taken from `s`, can make of the fields of session `id`. -/
inductive EventChange (e : Event) (s : State) (id : SessionId) (g : Session) : Prop where
  /-- the event does not write the session -/
  | kept (h : g = s.session id)
  /-- its interrupt ran the pump, which moved `m` bytes (R82, R93) -/
  | pumped (m : Nat) (ev : e = irqOf id) (ie : (s.session id).ie = true)
      (moved : m ≤ (s.session id).len - (s.session id).cur)
      (h : g = ((s.session id).moved m).epilogue s.cfg.fifoCap)
  /-- S_R's budget expired (R98) -/
  | expired (ev : e = .tick) (recv : id = .r) (busy : (s.session id).st = .inProgress)
      (h : g = (s.session id).ended .timedOut)

/-- A request needs its session's interrupt enabled (R91, R92). -/
theorem ie_of_enabled (s : State) (k : SessionId) (h : s.enabled (irqOf k) = true) : (s.session k).ie = true := by
  cases k <;> simp_all [State.enabled, irqOf, State.req]

/-- The interrupt of session `k` changes that session alone (R93). -/
theorem irq_change (s t : State) (k : SessionId) (he : s.enabled (irqOf k) = true) (h : s.pump k = .ok t)
    (id : SessionId) : EventChange (irqOf k) s id (t.session id) := by
  obtain ⟨m, hm, -, hk, hothers⟩ := pump_session s t k h
  by_cases hid : id = k
  · subst hid
    exact .pumped m rfl (ie_of_enabled s id he) hm hk
  · exact .kept (hothers id hid)

theorem tick_change (s : State) (id : SessionId) : EventChange .tick s id (s.tick.session id) := by
  rcases tick_cases s with h | ⟨b, -, busy, -, ⟨-, h⟩ | ⟨-, h⟩⟩ <;> rw [h]
  · exact .kept rfl
  · exact .kept (by simp)
  · by_cases hid : id = .r
    · subst hid
      exact .expired rfl rfl busy rfl
    · exact .kept (by simp [State.endReceive, hid])

/-- What any event can do to a session. -/
theorem execEvent_change (e : Event) (s t : State) (h : execEvent e s = .next t) (id : SessionId) :
    EventChange e s id (t.session id) := by
  rcases execEvent_cases e s t h with ⟨he, h⟩ | ⟨-, rfl⟩
  · cases e with
    | irqT => exact irq_change s t .t he h id
    | irqR => exact irq_change s t .r he h id
    | irqX => exact irq_change s t .x he h id
    | tick => exact Except.ok.inj h ▸ tick_change s id
    | txLoad =>
      obtain ⟨b, l, -, rfl⟩ := txLoad_cases s t h
      exact .kept (by simp)
    | txEmit => exact .kept (by rw [← Except.ok.inj h]; simp)
    | rxByte b => exact .kept (arrive_session s t b h id)
    | xchg r =>
      obtain ⟨b, l, -, h⟩ := xchg_cases s t r h
      exact .kept (by simpa using arrive_session _ t r h id)
  · exact .kept rfl

/-! ## The changes a step can make to a session -/

@[simp] theorem takeAgentStep_cfg (s : State) : s.takeAgentStep.2.cfg = s.cfg := by
  obtain ⟨l, n, h⟩ := takeAgentStep_frame s
  rw [h]

@[simp] theorem takeAgentStep_rxq (s : State) : s.takeAgentStep.2.rxq = s.rxq := by
  obtain ⟨l, n, h⟩ := takeAgentStep_frame s
  rw [h]

@[simp] theorem takeAgentStep_session (s : State) (id : SessionId) :
    s.takeAgentStep.2.session id = s.session id := by
  obtain ⟨l, n, h⟩ := takeAgentStep_frame s
  rw [h]
  cases id <;> rfl

theorem capacity_congr {s s' : State} (h : s'.cfg = s.cfg) (id : SessionId) : s'.capacity id = s.capacity id := by
  cases id <;> simp [h]

@[simp] theorem takeAgentStep_capacity (s : State) (id : SessionId) :
    s.takeAgentStep.2.capacity id = s.capacity id :=
  capacity_congr (takeAgentStep_cfg s) id

/-- The changes a command makes depend on the sessions, the parameters and RXQ alone. -/
theorem CommandChange.of_takeAgentStep {i : Instr} {s : State} {id : SessionId} {g : Session}
    (h : CommandChange i s.takeAgentStep.2 id g) : CommandChange i s id g := by
  cases h with
  | kept h => exact .kept (by simpa using h)
  | started n m cmd idle pos fits moved spi h =>
    exact .started n m cmd (by simpa using idle) pos (by simpa using fits) moved (by simpa using spi) (by simpa using h)
  | checked st cmd recv busy ending h =>
    exact .checked st cmd recv (by simpa using busy) (by simpa using ending) (by simpa using h)
  | acked cmd done h => exact .acked cmd (by simpa using done) (by simpa using h)

/-- The changes an event makes depend on the sessions and the parameters alone. -/
theorem EventChange.of_takeAgentStep {e : Event} {s : State} {id : SessionId} {g : Session}
    (h : EventChange e s.takeAgentStep.2 id g) : EventChange e s id g := by
  cases h with
  | kept h => exact .kept (by simpa using h)
  | pumped m ev ie moved h => exact .pumped m ev (by simpa using ie) (by simpa using moved) (by simpa using h)
  | expired ev recv busy h => exact .expired ev recv (by simpa using busy) (by simpa using h)

/-- What any step can do to a session: what its command or its event can do; a word that is no command does nothing. -/
theorem step_change (s t : State) (h : step s = .next t) (id : SessionId) :
    t.session id = s.session id ∨ (∃ i, NextCommandIs s i ∧ CommandChange i s id (t.session id)) ∨
      ∃ e, s.takeAgentStep.1 = .event e ∧ EventChange e s id (t.session id) := by
  rcases step_cases s t h with ⟨w, i, hw, hd, hi⟩ | ⟨w, c, hw, hd, rfl⟩ | ⟨e, he, hs⟩
  · exact .inr (.inl ⟨i, ⟨w, hw, by simpa using hd⟩, (exec_change i _ t hi id).of_takeAgentStep⟩)
  · exact .inl (by simp)
  · exact .inr (.inr ⟨e, he, (execEvent_change e _ t hs id).of_takeAgentStep⟩)

/-! ## The parameters never change -/

@[simp] theorem rejected_cfg (s : State) : s.rejected.cfg = s.cfg := rfl

@[simp] theorem illegal_cfg (s : State) : s.illegal.cfg = s.cfg := rfl

@[simp] theorem reportStatus_cfg (s : State) (id : SessionId) : (s.reportStatus id).cfg = s.cfg := rfl

@[simp] theorem driveSelect_cfg (s : State) (cs : Option Endpoint) : (s.driveSelect cs).cfg = s.cfg := by
  unfold State.driveSelect
  split <;> rfl

@[simp] theorem acknowledge_cfg (s : State) (id : SessionId) : (s.acknowledge id).cfg = s.cfg := by
  unfold State.acknowledge
  split <;> simp

@[simp] theorem livenessCheck_cfg (s : State) : s.livenessCheck.cfg = s.cfg := by
  rcases livenessCheck_cases s with h | ⟨h, -⟩ | ⟨h, -⟩ <;> simp [h]

@[simp] theorem tick_cfg (s : State) : s.tick.cfg = s.cfg := by
  rcases tick_cases s with h | ⟨b, -, -, -, ⟨-, h⟩ | ⟨-, h⟩⟩ <;> simp [h]

@[simp] theorem txEmit_cfg (s : State) : s.txEmit.cfg = s.cfg := by
  unfold State.txEmit
  split <;> rfl

theorem arrive_cfg (s t : State) (b : Byte) (h : s.arrive b = .ok t) : t.cfg = s.cfg := by
  rw [arrive_eq] at h
  obtain rfl := Except.ok.inj h
  split <;> simp

theorem pump_cfg (s t : State) (id : SessionId) (h : s.pump id = .ok t) : t.cfg = s.cfg := by
  cases id with
  | t => simp [pump_t_cases s t h]
  | r => simp [pump_r_cases s t h]
  | x => simp [pump_x_cases s t h, State.pumpedX]

theorem startSession_cfg {s t p : State} {k : SessionId} {n : Nat} {body : State → Except Fault State}
    (hbody : body s = p.pump k) (hp : p.cfg = s.cfg) (h : startSession k n body s = .next t) : t.cfg = s.cfg := by
  rcases startSession_cases k n body s t h with rfl | ⟨-, -, -, u, hu, rfl⟩
  · rfl
  · rw [respond_cfg, pump_cfg p u k (hbody ▸ hu), hp]

theorem writeBuffer_cfg {B : Buf} {k : Nat} {v : Byte} {s t : State} (h : writeBuffer B k v s = .next t) :
    t.cfg = s.cfg := by
  rcases writeBuffer_cases B k v s t h with rfl | ⟨-, -, rfl⟩ <;> simp

theorem readBuffer_cfg {B : Buf} {k : Nat} {s t : State} (h : readBuffer B k s = .next t) : t.cfg = s.cfg := by
  rcases readBuffer_cases B k s t h with rfl | ⟨-, -, rfl⟩ <;> simp

theorem exec_cfg (i : Instr) (s t : State) (h : exec i s = .next t) : t.cfg = s.cfg := by
  have ill : s.illegal.cfg = s.cfg := rfl
  revert t
  cases i with
  | startT len => exact of_onKind ill fun _ t h => startSession_cfg rfl (by simp) h
  | startR len => exact of_onKind ill fun _ t h => startSession_cfg rfl (by simp) h
  | startX ep len =>
    refine of_onKind ill fun _ => ?_
    cases ep with
    | none => exact fun t h => startSession_cfg rfl (by simp) h
    | some e => exact of_onEndpoint ill fun t h => startSession_cfg rfl (by simp) h
  | statusT => exact of_onKind_next ill rfl
  | statusR =>
    refine of_onKind_next ill ?_
    split <;> simp
  | statusX => exact of_onKind_next ill rfl
  | ackT => exact of_onKind_next ill (acknowledge_cfg s .t)
  | ackR => exact of_onKind_next ill (acknowledge_cfg s .r)
  | ackX => exact of_onKind_next ill (acknowledge_cfg s .x)
  | select e => exact of_onKind ill fun _ => of_onEndpoint ill fun t h =>
      Host.Outcome.next.inj h ▸ driveSelect_cfg s _
  | deselect => exact of_onKind_next ill (driveSelect_cfg s none)
  | settmo nt tmo => exact of_onKind_next ill rfl
  | bufwrT idx data => exact fun t h => writeBuffer_cfg h
  | bufwrR idx data => exact fun t h => writeBuffer_cfg h
  | bufrdT idx => exact fun t h => readBuffer_cfg h
  | bufrdR idx => exact fun t h => readBuffer_cfg h

theorem execEvent_cfg (e : Event) (s t : State) (h : execEvent e s = .next t) : t.cfg = s.cfg := by
  rcases execEvent_cases e s t h with ⟨-, h⟩ | ⟨-, rfl⟩
  · cases e with
    | irqT => exact pump_cfg s t .t h
    | irqR => exact pump_cfg s t .r h
    | irqX => exact pump_cfg s t .x h
    | tick => rw [← Except.ok.inj h, tick_cfg]
    | txLoad =>
      obtain ⟨b, l, -, rfl⟩ := txLoad_cases s t h
      simp
    | txEmit => rw [← Except.ok.inj h, txEmit_cfg]
    | rxByte b => exact arrive_cfg s t b h
    | xchg r =>
      obtain ⟨b, l, -, h⟩ := xchg_cases s t r h
      simpa using arrive_cfg _ t r h
  · rfl

/-- No step changes the parameters (log 3). -/
theorem step_cfg (s t : State) (h : step s = .next t) : t.cfg = s.cfg := by
  rw [← takeAgentStep_cfg s]
  rcases step_cases s t h with ⟨w, i, -, -, hi⟩ | ⟨w, c, -, -, rfl⟩ | ⟨e, -, he⟩
  · exact exec_cfg i _ t hi
  · rfl
  · exact execEvent_cfg e _ t he

/-! ## Every change keeps the session invariant -/

/-- The epilogue establishes the session invariant for a session in progress whose cursor is inside its length (R82). -/
theorem sessionInv_epilogue {f : Session} {cap : Nat} (fifoCap : Nat) (busy : f.st = .inProgress) (pos : 1 ≤ f.len)
    (fits : f.len ≤ cap) (cur_le : f.cur ≤ f.len) : SessionInv (f.epilogue fifoCap) cap fifoCap := by
  by_cases hc : f.cur = f.len <;> constructor <;> simp_all

/-- A session in progress has not moved all its bytes. -/
theorem SessionInv.cur_lt {f : Session} {cap fifoCap : Nat} (h : SessionInv f cap fifoCap) (busy : f.st = .inProgress) :
    f.cur < f.len :=
  h.cursorInvariant.2.2.2 (.inl busy)

theorem SessionInv.timedOut {f : Session} {cap fifoCap : Nat} (h : SessionInv f cap fifoCap)
    (busy : f.st = .inProgress) : SessionInv (f.ended .timedOut) cap fifoCap := by
  have hlt := h.cur_lt busy
  constructor <;> simp [Session.ended, h.len_le, h.thr_le] <;> omega

theorem SessionInv.acknowledged {f : Session} {cap fifoCap : Nat} (h : SessionInv f cap fifoCap)
    (done : f.st = .finished ∨ f.st = .timedOut) : SessionInv f.acknowledged cap fifoCap := by
  have hie : f.ie = false := by
    rw [← Bool.not_eq_true, h.ie]
    rcases done with hst | hst <;> simp [hst]
  constructor <;> simp [Session.acknowledged, h.len_le, h.thr_le, hie]

theorem CommandChange.keeps_sessionInv {i : Instr} {s : State} {id : SessionId} {g : Session}
    (hg : CommandChange i s id g) (hs : SessionInv (s.session id) (s.capacity id) s.cfg.fifoCap) :
    SessionInv g (s.capacity id) s.cfg.fifoCap := by
  cases hg with
  | kept h => exact h ▸ hs
  | started n m _ _ pos fits moved _ h =>
    exact h ▸ sessionInv_epilogue _ rfl (by simpa) (by simpa) (by simpa)
  | checked st _ _ busy ending h =>
    rcases ending with rfl | ⟨-, hlen⟩
    · exact h ▸ hs.timedOut busy
    · exact absurd hlen (hs.cur_lt busy).ne
  | acked _ done h => exact h ▸ hs.acknowledged done

theorem EventChange.keeps_sessionInv {e : Event} {s : State} {id : SessionId} {g : Session}
    (hg : EventChange e s id g) (hs : SessionInv (s.session id) (s.capacity id) s.cfg.fifoCap) :
    SessionInv g (s.capacity id) s.cfg.fifoCap := by
  cases hg with
  | kept h => exact h ▸ hs
  | pumped m _ ie moved h =>
    have busy := hs.ie.1 ie
    have hlt := hs.cur_lt busy
    refine h ▸ sessionInv_epilogue _ (by simpa using busy) ?_ (by simpa using hs.len_le) ?_
    · simp; omega
    · simp; omega
  | expired _ _ busy h => exact h ▸ hs.timedOut busy

/-- Every step keeps the invariant of each session. -/
theorem step_keeps_sessionInv (s t : State) (id : SessionId) (h : step s = .next t)
    (hs : SessionInv (s.session id) (s.capacity id) s.cfg.fifoCap) :
    SessionInv (t.session id) (t.capacity id) t.cfg.fifoCap := by
  have hcfg := step_cfg s t h
  rw [capacity_congr hcfg, hcfg]
  rcases step_change s t h id with hk | ⟨i, -, hc⟩ | ⟨e, -, hc⟩
  · exact hk ▸ hs
  · exact hc.keeps_sessionInv hs
  · exact hc.keeps_sessionInv hs

/-! ## Runs -/

/-- What every step keeps holds at the end of every run. -/
theorem run_keeps {M : Host.Core} (P : M.State → Prop) (hP : ∀ s t, P s → M.step s = .next t → P t) (n : Nat)
    (s t : M.State) (hs : P s) (h : M.run n s = .next t) : P t := by
  induction n generalizing s with
  | zero => exact Host.Outcome.next.inj h ▸ hs
  | succ n ih =>
    unfold Host.Core.run at h
    split at h
    · next s' hstep => exact ih s' (hP s s' hs hstep) h
    · exact absurd h (by simp)
    · exact absurd h (by simp)

/-- Each session meets its invariant, and the FIFOs can hold a byte. -/
def SessionsInv (s : State) : Prop :=
  1 ≤ s.cfg.fifoCap ∧ ∀ id, SessionInv (s.session id) (s.capacity id) s.cfg.fifoCap

theorem step_keeps_sessionsInv (s t : State) (hs : SessionsInv s) (h : step s = .next t) : SessionsInv t :=
  ⟨step_cfg s t h ▸ hs.1, fun id => step_keeps_sessionInv s t id h (hs.2 id)⟩

theorem sessionsInv_reset (c : Config) (l : List AgentStep) (hc : c.wf) :
    SessionsInv { State.resetOf c with schedule := l } := by
  refine ⟨hc.1.1, fun id => ?_⟩
  cases id <;> exact sessionInv_reset _ _

/-- Settles O44: the session invariant holds after reset and every step keeps it, and it gives R30 and R31. -/
theorem reachableSessionsMeetTheirInvariants : Obligations.ReachableSessionsMeetTheirInvariants := by
  intro c l n t hc hrun id
  obtain ⟨hcap, ht⟩ :=
    run_keeps (M := Sys2Proof.core) SessionsInv step_keeps_sessionsInv n _ t (sessionsInv_reset c l hc) hrun
  exact ⟨(ht id).cursorInvariant, (ht id).enableInvariant hcap⟩

/-! ## The transitions of a session's status -/

/-- The machine's invariant gives each session's. -/
theorem Inv.session {s : State} (h : Inv s) (id : SessionId) :
    SessionInv (s.session id) (s.capacity id) s.cfg.fifoCap := by
  cases id with
  | t => exact h.t
  | r => exact h.r
  | x => exact h.x

/-- Settles O48: each change of a session's fields is one of the transitions of R29. -/
theorem onlyTheListedTransitionsHappen : Obligations.OnlyTheListedTransitionsHappen := by
  intro s t id hinv hstep
  have hs := hinv.session id
  rcases step_change s t hstep id with hk | ⟨i, hnext, hc⟩ | ⟨e, hnext, hc⟩
  · exact .inl (by rw [hk])
  · cases hc with
    | kept h => exact .inl (by rw [h])
    | started n m cmd idle pos fits moved spi h =>
      by_cases hm : m = n
      · refine .inr (.inr (.inl ⟨idle, by simp [h, hm], fun hx => ?_, i, cmd, hnext⟩))
        obtain ⟨hkind, hle⟩ := spi hx
        subst hx
        have hempty := ((hinv.spi hkind).drained (by simp [show s.sX.st = Status.idle from idle])).2
        simp [hempty] at hle
        omega
      · exact .inr (.inl ⟨idle, by simp [h, hm], i, cmd, hnext⟩)
    | checked st cmd recv busy ending h =>
      rcases ending with rfl | ⟨-, hlen⟩
      · exact .inr (.inr (.inr (.inr (.inl ⟨busy, by simp [h, Session.ended], recv, .inr (cmd ▸ hnext)⟩))))
      · exact absurd hlen (hs.cur_lt busy).ne
    | acked cmd done h =>
      exact .inr (.inr (.inr (.inr (.inr ⟨done, by simp [h, Session.acknowledged], cmd ▸ hnext⟩))))
  · cases hc with
    | kept h => exact .inl (by rw [h])
    | pumped m ev ie moved h =>
      have busy := hs.ie.1 ie
      by_cases hm : (s.session id).cur + m = (s.session id).len
      · exact .inr (.inr (.inr (.inl ⟨busy, by simp [h, hm], by simp [h, hm], ev ▸ hnext⟩)))
      · exact .inl (by simp [h, hm])
    | expired ev recv busy h =>
      exact .inr (.inr (.inr (.inr (.inl ⟨busy, by simp [h, Session.ended], recv, .inl (ev ▸ hnext)⟩))))

end Sys2Proof.Machine

/-! SUPPORT. The decoder by formats and rows, what a command answers, and the four statements about the command words
(spec/30_encoding.md R68 to R74, R77, with 43_buffer_port.md R137 to R139): every word is a row of the opcode table or
ILLEGAL, an ILLEGAL word changes nothing, every command answers once, and BUFRD. A mask and a match are read as a list
of fields throughout: `w &&& m = v` says that `w` and `v` agree in each field that makes up `m`. -/

namespace Sys2Proof.Machine

/-! ## A mask compares fields -/

/-- The bits of the `n`-bit field at bit `k`. -/
def fieldMask (k n : Nat) : Word := (BitVec.allOnes n).setWidth 32 <<< k

/-- The bits of several fields, each given by its lowest bit and its width. -/
def fieldsMask (fs : List (Nat × Nat)) : Word := fs.foldr (fun f m => fieldMask f.1 f.2 ||| m) 0

/-- Two words agree under a mask when they agree at each of its bits. -/
theorem and_eq_and_iff (w v m : Word) :
    w &&& m = v &&& m ↔ ∀ i, m.getLsbD i = true → w.getLsbD i = v.getLsbD i := by
  simp only [BitVec.eq_of_getLsbD_eq_iff, BitVec.getLsbD_and]
  refine ⟨fun h i hm => ?_, fun h i _ => ?_⟩
  · simpa [hm] using h i (BitVec.lt_of_getLsbD hm)
  · cases hm : m.getLsbD i <;> simp [h i, hm]

theorem getLsbD_fieldMask (k n i : Nat) :
    (fieldMask k n).getLsbD i = true ↔ k ≤ i ∧ i < k + n ∧ i < 32 := by
  simp only [fieldMask, BitVec.getLsbD_shiftLeft, BitVec.getLsbD_setWidth, BitVec.getLsbD_allOnes, Bool.and_eq_true,
    Bool.not_eq_true', decide_eq_true_eq, decide_eq_false_iff_not]
  omega

/-- Two words agree under the mask of a field when their fields are equal. -/
theorem and_fieldMask_eq_iff (w v : Word) (k n : Nat) :
    w &&& fieldMask k n = v &&& fieldMask k n ↔ w.extractLsb' k n = v.extractLsb' k n := by
  rw [and_eq_and_iff, BitVec.eq_of_getLsbD_eq_iff]
  simp only [getLsbD_fieldMask, BitVec.getLsbD_extractLsb']
  refine ⟨fun h i hi => ?_, fun h i ⟨hk, hn, _⟩ => ?_⟩
  · by_cases hk : k + i < 32
    · rw [h (k + i) ⟨by omega, by omega, hk⟩]
    · simp [BitVec.getLsbD_of_ge _ _ (Nat.le_of_not_lt hk)]
  · have hi := h (i - k) (by omega)
    rw [Nat.add_sub_cancel' hk] at hi
    simpa [show i - k < n by omega] using hi

/-- Two words agree under two masks together when they agree under each. -/
theorem and_or_eq_and_or_iff (w v m m' : Word) :
    w &&& (m ||| m') = v &&& (m ||| m') ↔ w &&& m = v &&& m ∧ w &&& m' = v &&& m' := by
  simp only [and_eq_and_iff, BitVec.getLsbD_or, Bool.or_eq_true, or_imp, forall_and]

/-- Two words agree under the mask of several fields when they agree in each field. -/
theorem and_fieldsMask_eq_iff (w v : Word) (fs : List (Nat × Nat)) :
    w &&& fieldsMask fs = v &&& fieldsMask fs ↔ ∀ f ∈ fs, w.extractLsb' f.1 f.2 = v.extractLsb' f.1 f.2 := by
  induction fs with
  | nil => simp [fieldsMask]
  | cons f fs ih =>
    rw [List.forall_mem_cons, ← ih, ← and_fieldMask_eq_iff]
    exact and_or_eq_and_or_iff w v _ _

/-- The fixed bits `m'`, `v'` are the fixed bits `m`, `v` and some fields more. -/
theorem and_eq_iff_and_fields (fs : List (Nat × Nat)) {m v m' v' : Word} (hm : m ||| fieldsMask fs = m')
    (hv : v' &&& m = v) (hv' : v' &&& m' = v') (w : Word) :
    w &&& m' = v' ↔ w &&& m = v ∧ ∀ f ∈ fs, w.extractLsb' f.1 f.2 = v'.extractLsb' f.1 f.2 := by
  rw [← and_fieldsMask_eq_iff, ← hv, ← and_or_eq_and_or_iff, hm, hv']

/-! ## The formats of the opcodes -/

/-- The reserved fields of an opcode's format (R58 to R61, R65, R66). -/
def reservedFields (op : Nat) : List (Nat × Nat) :=
  match op with
  | 1 => [(24, 2), (16, 4)]
  | 2 => [(0, 27)]
  | 3 => [(0, 27)]
  | 4 => [(24, 4), (0, 20)]
  | 5 => [(0, 28)]
  | 6 => [(17, 11)]
  | 7 => [(24, 3)]
  | 8 => [(24, 3), (0, 8)]
  | _ => []

theorem reservedBitSet_eq_false_iff (w : Word) :
    w.reservedBitSet = false ↔ ∀ f ∈ reservedFields w.op.toNat, w.extractLsb' f.1 f.2 = 0 := by
  unfold Word.reservedBitSet
  split <;> simp [reservedFields, *]

/-- The mask of a format is OP and its reserved fields; its match has that OP and no reserved bit. -/
theorem formatTable_fields : ∀ f ∈ formatTable,
    fieldsMask ((28, 4) :: reservedFields f.1.toNat) = f.2.1 ∧ f.2.2 &&& f.2.1 = f.2.2 ∧ f.2.2.op = f.1 ∧
      f.2.2.reservedBitSet = false := by
  simp only [formatTable, List.forall_mem_cons]
  refine ⟨?_, ?_, ?_, ?_, ?_, ?_, ?_, ?_, nofun⟩ <;> decide

/-- The fixed bits of a format say that OP is the format's and no reserved bit is set. -/
theorem fitsFormat_iff {f : BitVec 4 × Word × Word} (hf : f ∈ formatTable) (w : Word) :
    w &&& f.2.1 = f.2.2 ↔ w.op = f.1 ∧ w.reservedBitSet = false := by
  obtain ⟨hm, hv, hop, hr⟩ := formatTable_fields f hf
  rw [reservedBitSet_eq_false_iff, hop] at hr
  rw [← hv, ← hm, and_fieldsMask_eq_iff, List.forall_mem_cons, ← Word.op, ← Word.op, hop, reservedBitSet_eq_false_iff]
  refine and_congr_right fun h => ?_
  rw [h]
  exact forall₂_congr fun g hg => by rw [hr g hg]

/-- Every OP that is not reserved has a format (R57, R68). -/
theorem format_of_not_reservedOpcode {w : Word} (h : ¬ ReservedOpcode w) : ∃ f ∈ formatTable, w.op = f.1 := by
  have all : ∀ k : BitVec 4, ¬ (k = 0 ∨ 9 ≤ k.toNat) → ∃ f ∈ formatTable, k = f.1 := by decide
  exact all w.op h

/-! ## The decoder, by format -/

theorem decode_eq_ok_iff (c : Config) (w : Word) (i : Instr) :
    decode c w = .ok i ↔ w.reservedBitSet = false ∧ decodeOp c w = .ok i := by
  cases hr : w.reservedBitSet <;> simp [decode, hr]

theorem decodeOp_of_reservedOpcode (c : Config) {w : Word} (h : ReservedOpcode w) :
    decodeOp c w = .error .reservedOpcode := by
  have hop : w.op = 0 ∨ 9 ≤ w.op.toNat := h
  have hop : w.op.toNat = 0 ∨ 9 ≤ w.op.toNat := hop.imp_left fun h => by simp [h]
  unfold decodeOp
  split
  case h_9 => rfl
  all_goals omega

/-- A word that fits a format has its OP and is decoded by it. -/
theorem decode_of_fits (c : Config) {w : Word} {k : BitVec 4} {m v : Word} (hf : (k, m, v) ∈ formatTable)
    (h : w &&& m = v) : w.op = k ∧ decode c w = decodeOp c w := by
  obtain ⟨hop, hr⟩ := (fitsFormat_iff hf w).1 h
  exact ⟨hop, by simp [decode, hr]⟩

theorem decode_start (c : Config) {w : Word} (h : w &&& 0xF30F0000#32 = 0x10000000#32) :
    decode c w = decodeStart c w := by
  obtain ⟨hop, hd⟩ := decode_of_fits c (k := 1) (by simp [formatTable]) h
  simp [hd, decodeOp, hop]

theorem decode_status (c : Config) {w : Word} (h : w &&& 0xF7FFFFFF#32 = 0x20000000#32) :
    decode c w = decodeBySession c w .statusT .statusR .statusX := by
  obtain ⟨hop, hd⟩ := decode_of_fits c (k := 2) (by simp [formatTable]) h
  simp [hd, decodeOp, hop]

theorem decode_ack (c : Config) {w : Word} (h : w &&& 0xF7FFFFFF#32 = 0x30000000#32) :
    decode c w = decodeBySession c w .ackT .ackR .ackX := by
  obtain ⟨hop, hd⟩ := decode_of_fits c (k := 3) (by simp [formatTable]) h
  simp [hd, decodeOp, hop]

theorem decode_select (c : Config) {w : Word} (h : w &&& 0xFF0FFFFF#32 = 0x40000000#32) :
    decode c w = decodeSelect c w := by
  obtain ⟨hop, hd⟩ := decode_of_fits c (k := 4) (by simp [formatTable]) h
  simp [hd, decodeOp, hop]

theorem decode_deselect (c : Config) {w : Word} (h : w &&& 0xFFFFFFFF#32 = 0x50000000#32) :
    decode c w = decodeDeselect c := by
  obtain ⟨hop, hd⟩ := decode_of_fits c (k := 5) (by simp [formatTable]) h
  simp [hd, decodeOp, hop]

theorem decode_settmo (c : Config) {w : Word} (h : w &&& 0xFFFE0000#32 = 0x60000000#32) :
    decode c w = decodeSettmo c w := by
  obtain ⟨hop, hd⟩ := decode_of_fits c (k := 6) (by simp [formatTable]) h
  simp [hd, decodeOp, hop]

theorem decode_bufwr (c : Config) {w : Word} (h : w &&& 0xF7000000#32 = 0x70000000#32) :
    decode c w = .ok (if w.d then .bufwrR w.idx w.data else .bufwrT w.idx w.data) := by
  obtain ⟨hop, hd⟩ := decode_of_fits c (k := 7) (by simp [formatTable]) h
  simp [hd, decodeOp, hop, apply_ite]

theorem decode_bufrd (c : Config) {w : Word} (h : w &&& 0xF70000FF#32 = 0x80000000#32) :
    decode c w = .ok (if w.d then .bufrdR w.idx else .bufrdT w.idx) := by
  obtain ⟨hop, hd⟩ := decode_of_fits c (k := 8) (by simp [formatTable]) h
  simp [hd, decodeOp, hop, apply_ite]

/-! ## Which words of a format are commands, and of what (R70, R71) -/

theorem decodeStart_eq_ok_iff (c : Config) (w : Word) (i : Instr) :
    decodeStart c w = .ok i ↔
      (c.kind = .uart ∧ w.s = false ∧ w.e = 0 ∧ i = if w.d then .startR w.low16 else .startT w.low16) ∨
      (c.kind = .spi ∧ w.d = false ∧ w.s = true ∧ w.e.toNat < c.nEp ∧ i = .startX (some w.e) w.low16) ∨
      (c.kind = .spi ∧ w.d = false ∧ w.s = false ∧ w.e = 0 ∧ i = .startX none w.low16) := by
  unfold decodeStart
  split <;> split_ifs <;> grind

theorem decodeBySession_eq_ok_iff (c : Config) (w : Word) (t r x i : Instr) :
    decodeBySession c w t r x = .ok i ↔
      (c.kind = .uart ∧ i = if w.d then r else t) ∨ (c.kind = .spi ∧ w.d = false ∧ i = x) := by
  cases hk : c.kind <;> cases hd : w.d <;> simp [decodeBySession, hk, hd, eq_comm]

theorem decodeSelect_eq_ok_iff (c : Config) (w : Word) (i : Instr) :
    decodeSelect c w = .ok i ↔ c.kind = .spi ∧ w.e.toNat < c.nEp ∧ i = .select w.e := by
  cases hk : c.kind <;> by_cases he : w.e.toNat < c.nEp <;> simp [decodeSelect, hk, he, eq_comm]

theorem decodeDeselect_eq_ok_iff (c : Config) (i : Instr) :
    decodeDeselect c = .ok i ↔ c.kind = .spi ∧ i = .deselect := by
  cases hk : c.kind <;> simp [decodeDeselect, hk, eq_comm]

theorem decodeSettmo_eq_ok_iff (c : Config) (w : Word) (i : Instr) :
    decodeSettmo c w = .ok i ↔ c.kind = .uart ∧ i = .settmo w.nt w.low16 := by
  cases hk : c.kind <;> simp [decodeSettmo, hk, eq_comm]

/-! ## A row of the opcode table is a format with some of D, S and E fixed -/

theorem extractLsb'_one (w : Word) (i : Nat) : w.extractLsb' i 1 = BitVec.ofBool (w.getLsbD i) := by
  have bits : ∀ b : BitVec 1, b = BitVec.ofBool (b == 1#1) := by decide
  rw [BitVec.getLsbD_eq_extractLsb', ← bits]

/-- The fixed bits `m'`, `v'` are the fixed bits `m`, `v` and one bit more. -/
theorem and_eq_iff_and_bit (k : Nat) {m v m' v' : Word} (hm : m ||| fieldsMask [(k, 1)] = m') (hv : v' &&& m = v)
    (hv' : v' &&& m' = v') (w : Word) : w &&& m' = v' ↔ w &&& m = v ∧ w.getLsbD k = v'.getLsbD k := by
  rw [and_eq_iff_and_fields [(k, 1)] hm hv hv']
  simp only [List.forall_mem_singleton, extractLsb'_one, BitVec.ofBool_eq_iff_eq]

theorem startX_row_iff (w : Word) :
    w &&& 0xFB0F0000#32 = 0x10000000#32 ↔ w &&& 0xF30F0000#32 = 0x10000000#32 ∧ w.d = false :=
  and_eq_iff_and_bit 27 (by decide) (by decide) (by decide) w

/-- A START row of UART fixes D, S and E beside the format's bits (R62, R63). -/
theorem startUart_row_iff {v : Word} (hv : v &&& 0xF30F0000#32 = 0x10000000#32) (hv' : v &&& 0xFFFF0000#32 = v)
    (w : Word) : w &&& 0xFFFF0000#32 = v ↔
      w &&& 0xF30F0000#32 = 0x10000000#32 ∧ w.d = v.d ∧ w.s = v.s ∧ w.e = v.e := by
  rw [and_eq_iff_and_fields [(27, 1), (26, 1), (20, 4)] (by decide) hv hv']
  simp only [List.forall_mem_cons, List.not_mem_nil, false_imp_iff, implies_true, and_true, extractLsb'_one,
    BitVec.ofBool_eq_iff_eq]
  rfl

theorem startT_row_iff (w : Word) : w &&& 0xFFFF0000#32 = 0x10000000#32 ↔
    w &&& 0xF30F0000#32 = 0x10000000#32 ∧ w.d = false ∧ w.s = false ∧ w.e = 0 :=
  startUart_row_iff (by decide) (by decide) w

theorem startR_row_iff (w : Word) : w &&& 0xFFFF0000#32 = 0x18000000#32 ↔
    w &&& 0xF30F0000#32 = 0x10000000#32 ∧ w.d = true ∧ w.s = false ∧ w.e = 0 :=
  startUart_row_iff (by decide) (by decide) w

theorem statusT_row_iff (w : Word) :
    w &&& 0xFFFFFFFF#32 = 0x20000000#32 ↔ w &&& 0xF7FFFFFF#32 = 0x20000000#32 ∧ w.d = false :=
  and_eq_iff_and_bit 27 (by decide) (by decide) (by decide) w

theorem statusR_row_iff (w : Word) :
    w &&& 0xFFFFFFFF#32 = 0x28000000#32 ↔ w &&& 0xF7FFFFFF#32 = 0x20000000#32 ∧ w.d = true :=
  and_eq_iff_and_bit 27 (by decide) (by decide) (by decide) w

theorem ackT_row_iff (w : Word) :
    w &&& 0xFFFFFFFF#32 = 0x30000000#32 ↔ w &&& 0xF7FFFFFF#32 = 0x30000000#32 ∧ w.d = false :=
  and_eq_iff_and_bit 27 (by decide) (by decide) (by decide) w

theorem ackR_row_iff (w : Word) :
    w &&& 0xFFFFFFFF#32 = 0x38000000#32 ↔ w &&& 0xF7FFFFFF#32 = 0x30000000#32 ∧ w.d = true :=
  and_eq_iff_and_bit 27 (by decide) (by decide) (by decide) w

theorem bufwrT_row_iff (w : Word) :
    w &&& 0xFF000000#32 = 0x70000000#32 ↔ w &&& 0xF7000000#32 = 0x70000000#32 ∧ w.d = false :=
  and_eq_iff_and_bit 27 (by decide) (by decide) (by decide) w

theorem bufwrR_row_iff (w : Word) :
    w &&& 0xFF000000#32 = 0x78000000#32 ↔ w &&& 0xF7000000#32 = 0x70000000#32 ∧ w.d = true :=
  and_eq_iff_and_bit 27 (by decide) (by decide) (by decide) w

theorem bufrdT_row_iff (w : Word) :
    w &&& 0xFF0000FF#32 = 0x80000000#32 ↔ w &&& 0xF70000FF#32 = 0x80000000#32 ∧ w.d = false :=
  and_eq_iff_and_bit 27 (by decide) (by decide) (by decide) w

theorem bufrdR_row_iff (w : Word) :
    w &&& 0xFF0000FF#32 = 0x88000000#32 ↔ w &&& 0xF70000FF#32 = 0x80000000#32 ∧ w.d = true :=
  and_eq_iff_and_bit 27 (by decide) (by decide) (by decide) w

/-! ## Every word is a row or ILLEGAL (R73) -/

/-- What a row admits, in the fields the decoder reads. -/
theorem admits_iff (row : TableRow) (c : Config) (w : Word) :
    row.admits c w ↔ (match c.kind with | .uart => row.uart = true | .spi => row.spi = true) ∧
      w &&& row.mask = row.value ∧
      (row.mnemonic = "START.X" → if w.s then w.e.toNat < c.nEp else w.e = 0) ∧
      (row.mnemonic = "SELECT" → w.e.toNat < c.nEp) := Iff.rfl

/-- A word that decodes fits the format of its OP. -/
theorem format_of_decode {c : Config} {w : Word} {i : Instr} (h : decode c w = .ok i) :
    ∃ f ∈ formatTable, w.op = f.1 ∧ w &&& f.2.1 = f.2.2 := by
  obtain ⟨hr, ho⟩ := (decode_eq_ok_iff c w i).1 h
  have hop : ¬ ReservedOpcode w := fun hw => by simp [decodeOp_of_reservedOpcode c hw] at ho
  obtain ⟨f, hf, hop⟩ := format_of_not_reservedOpcode hop
  exact ⟨f, hf, hop, (fitsFormat_iff hf w).2 ⟨hop, hr⟩⟩

/-- A word that decodes is a word of its command's row: one case per format, and in it one per command. -/
theorem row_of_decode {c : Config} {w : Word} {i : Instr} (h : decode c w = .ok i) :
    ∃ row ∈ opcodeTable, row.mnemonic = mnemonicOf i ∧ row.admits c w := by
  obtain ⟨f, hf, -, hm⟩ := format_of_decode h
  simp only [formatTable, List.mem_cons, List.not_mem_nil, or_false] at hf
  rcases hf with rfl | rfl | rfl | rfl | rfl | rfl | rfl | rfl
  · -- START
    rw [decode_start c hm, decodeStart_eq_ok_iff] at h
    rcases h with ⟨hk, hs, he, rfl⟩ | ⟨hk, hd, hs, he, rfl⟩ | ⟨hk, hd, hs, he, rfl⟩
    · cases hd : w.d <;> simp [opcodeTable, mnemonicOf, admits_iff, startT_row_iff, startR_row_iff, *]
    · simp [opcodeTable, mnemonicOf, admits_iff, startX_row_iff, *]
    · simp [opcodeTable, mnemonicOf, admits_iff, startX_row_iff, *]
  · -- STATUS
    rw [decode_status c hm, decodeBySession_eq_ok_iff] at h
    rcases h with ⟨hk, rfl⟩ | ⟨hk, hd, rfl⟩
    · cases hd : w.d <;> simp [opcodeTable, mnemonicOf, admits_iff, statusT_row_iff, statusR_row_iff, *]
    · simp [opcodeTable, mnemonicOf, admits_iff, statusT_row_iff, *]
  · -- ACK
    rw [decode_ack c hm, decodeBySession_eq_ok_iff] at h
    rcases h with ⟨hk, rfl⟩ | ⟨hk, hd, rfl⟩
    · cases hd : w.d <;> simp [opcodeTable, mnemonicOf, admits_iff, ackT_row_iff, ackR_row_iff, *]
    · simp [opcodeTable, mnemonicOf, admits_iff, ackT_row_iff, *]
  · -- SELECT
    rw [decode_select c hm, decodeSelect_eq_ok_iff] at h
    obtain ⟨hk, he, rfl⟩ := h
    simp [opcodeTable, mnemonicOf, admits_iff, *]
  · -- DESELECT
    rw [decode_deselect c hm, decodeDeselect_eq_ok_iff] at h
    obtain ⟨hk, rfl⟩ := h
    simp [opcodeTable, mnemonicOf, admits_iff, *]
  · -- SETTMO
    rw [decode_settmo c hm, decodeSettmo_eq_ok_iff] at h
    obtain ⟨hk, rfl⟩ := h
    simp [opcodeTable, mnemonicOf, admits_iff, *]
  · -- BUFWR
    obtain rfl := Except.ok.inj ((decode_bufwr c hm).symm.trans h)
    cases hk : c.kind <;> cases hd : w.d <;>
      simp [opcodeTable, mnemonicOf, admits_iff, bufwrT_row_iff, bufwrR_row_iff, *]
  · -- BUFRD
    obtain rfl := Except.ok.inj ((decode_bufrd c hm).symm.trans h)
    cases hk : c.kind <;> cases hd : w.d <;>
      simp [opcodeTable, mnemonicOf, admits_iff, bufrdT_row_iff, bufrdR_row_iff, *]

/-- A row that one `KIND` lacks is of the other. -/
theorem kind_of_admits {row : TableRow} {c : Config} {w : Word} (h : row.admits c w) :
    (row.spi = false → c.kind = .uart) ∧ (row.uart = false → c.kind = .spi) := by
  obtain ⟨hk, -⟩ := h
  cases hc : c.kind <;> simp_all

/-- A word of a row decodes, to the row's command with the word's fields: one case per row. -/
theorem decode_of_row {c : Config} {w : Word} {row : TableRow} (hrow : row ∈ opcodeTable) (h : row.admits c w) :
    ∃ i, decode c w = .ok i := by
  obtain ⟨uart, spi⟩ := kind_of_admits h
  obtain ⟨-, hm, hx, hsel⟩ := (admits_iff row c w).1 h
  simp only [opcodeTable, List.cons_append, List.nil_append, List.mem_cons, List.not_mem_nil, or_false] at hrow
  rcases hrow with rfl | rfl | rfl | rfl | rfl | rfl | rfl | rfl | rfl | rfl | rfl | rfl | rfl | rfl | rfl | rfl
  · -- START.T
    obtain ⟨hf, hd, hs, he⟩ := (startT_row_iff w).1 hm
    exact ⟨.startT w.low16, by simp [decode_start c hf, decodeStart, uart, hd, hs, he]⟩
  · -- START.R
    obtain ⟨hf, hd, hs, he⟩ := (startR_row_iff w).1 hm
    exact ⟨.startR w.low16, by simp [decode_start c hf, decodeStart, uart, hd, hs, he]⟩
  · -- START.X
    obtain ⟨hf, hd⟩ := (startX_row_iff w).1 hm
    cases hs : w.s with
    | true => exact ⟨.startX (some w.e) w.low16, by simp_all [decode_start c hf, decodeStart]⟩
    | false => exact ⟨.startX none w.low16, by simp_all [decode_start c hf, decodeStart]⟩
  · -- STATUS.T
    obtain ⟨hf, hd⟩ := (statusT_row_iff w).1 hm
    exact ⟨.statusT, by simp [decode_status c hf, decodeBySession, uart, hd]⟩
  · -- STATUS.R
    obtain ⟨hf, hd⟩ := (statusR_row_iff w).1 hm
    exact ⟨.statusR, by simp [decode_status c hf, decodeBySession, uart, hd]⟩
  · -- STATUS.X
    obtain ⟨hf, hd⟩ := (statusT_row_iff w).1 hm
    exact ⟨.statusX, by simp [decode_status c hf, decodeBySession, spi, hd]⟩
  · -- ACK.T
    obtain ⟨hf, hd⟩ := (ackT_row_iff w).1 hm
    exact ⟨.ackT, by simp [decode_ack c hf, decodeBySession, uart, hd]⟩
  · -- ACK.R
    obtain ⟨hf, hd⟩ := (ackR_row_iff w).1 hm
    exact ⟨.ackR, by simp [decode_ack c hf, decodeBySession, uart, hd]⟩
  · -- ACK.X
    obtain ⟨hf, hd⟩ := (ackT_row_iff w).1 hm
    exact ⟨.ackX, by simp [decode_ack c hf, decodeBySession, spi, hd]⟩
  · -- SELECT
    exact ⟨.select w.e, by simp [decode_select c hm, decodeSelect, spi, hsel]⟩
  · -- DESELECT
    exact ⟨.deselect, by simp [decode_deselect c hm, decodeDeselect, spi]⟩
  · -- SETTMO
    exact ⟨.settmo w.nt w.low16, by simp [decode_settmo c hm, decodeSettmo, uart]⟩
  · -- BUFWR.T
    obtain ⟨hf, hd⟩ := (bufwrT_row_iff w).1 hm
    exact ⟨.bufwrT w.idx w.data, by simp [decode_bufwr c hf, hd]⟩
  · -- BUFWR.R
    obtain ⟨hf, hd⟩ := (bufwrR_row_iff w).1 hm
    exact ⟨.bufwrR w.idx w.data, by simp [decode_bufwr c hf, hd]⟩
  · -- BUFRD.T
    obtain ⟨hf, hd⟩ := (bufrdT_row_iff w).1 hm
    exact ⟨.bufrdT w.idx, by simp [decode_bufrd c hf, hd]⟩
  · -- BUFRD.R
    obtain ⟨hf, hd⟩ := (bufrdR_row_iff w).1 hm
    exact ⟨.bufrdR w.idx, by simp [decode_bufrd c hf, hd]⟩

/-- Settles O8: `row_of_decode` is one direction and `decode_of_row` the other. -/
theorem everyWordIsATableRowOrIllegal : Obligations.EveryWordIsATableRowOrIllegal := by
  refine fun c w => ⟨fun i h => row_of_decode h, fun cause hd row hrow h => ?_⟩
  obtain ⟨i, hi⟩ := decode_of_row hrow h
  simp [hi] at hd

/-! ## ILLEGAL words (R68 to R71) -/

theorem kindIllegal_uart_iff (w : Word) :
    KindIllegal .uart w ↔ w.op = 4 ∨ w.op = 5 ∨ (w.op = 1 ∧ (w.s = true ∨ w.e ≠ 0)) := Iff.rfl

theorem kindIllegal_spi_iff (w : Word) :
    KindIllegal .spi w ↔ ((w.op = 1 ∨ w.op = 2 ∨ w.op = 3) ∧ w.d = true) ∨ w.op = 6 ∨
      (w.op = 1 ∧ w.s = false ∧ w.e ≠ 0) := Iff.rfl

theorem endpointIllegal_iff (c : Config) (w : Word) :
    EndpointIllegal c w ↔ c.kind = .spi ∧ (w.op = 4 ∨ (w.op = 1 ∧ w.s = true)) ∧ c.nEp ≤ w.e.toNat := Iff.rfl

/-- What R70 and R71 exclude does not decode: one case per format. -/
theorem not_kindIllegal_of_decode {c : Config} {w : Word} {i : Instr} (h : decode c w = .ok i) :
    ¬ KindIllegal c.kind w ∧ ¬ EndpointIllegal c w := by
  obtain ⟨f, hf, hop, hm⟩ := format_of_decode h
  rw [endpointIllegal_iff]
  simp only [formatTable, List.mem_cons, List.not_mem_nil, or_false] at hf
  rcases hf with rfl | rfl | rfl | rfl | rfl | rfl | rfl | rfl
  · -- START
    rw [decode_start c hm, decodeStart_eq_ok_iff] at h
    rcases h with ⟨hk, hs, he, rfl⟩ | ⟨hk, hd, hs, he, rfl⟩ | ⟨hk, hd, hs, he, rfl⟩ <;>
      simp [kindIllegal_uart_iff, kindIllegal_spi_iff, *]
  · -- STATUS
    rw [decode_status c hm, decodeBySession_eq_ok_iff] at h
    rcases h with ⟨hk, rfl⟩ | ⟨hk, hd, rfl⟩ <;> simp [kindIllegal_uart_iff, kindIllegal_spi_iff, *]
  · -- ACK
    rw [decode_ack c hm, decodeBySession_eq_ok_iff] at h
    rcases h with ⟨hk, rfl⟩ | ⟨hk, hd, rfl⟩ <;> simp [kindIllegal_uart_iff, kindIllegal_spi_iff, *]
  · -- SELECT
    rw [decode_select c hm, decodeSelect_eq_ok_iff] at h
    obtain ⟨hk, he, rfl⟩ := h
    simp [kindIllegal_spi_iff, *]
  · -- DESELECT
    rw [decode_deselect c hm, decodeDeselect_eq_ok_iff] at h
    simp [kindIllegal_spi_iff, *]
  · -- SETTMO
    rw [decode_settmo c hm, decodeSettmo_eq_ok_iff] at h
    simp [kindIllegal_uart_iff, *]
  · -- BUFWR
    cases hk : c.kind <;> simp [kindIllegal_uart_iff, kindIllegal_spi_iff, *]
  · -- BUFRD
    cases hk : c.kind <;> simp [kindIllegal_uart_iff, kindIllegal_spi_iff, *]

theorem not_illegal_of_decode {c : Config} {w : Word} {i : Instr} (h : decode c w = .ok i) :
    ¬ (ReservedOpcode w ∨ ReservedBit w ∨ KindIllegal c.kind w ∨ EndpointIllegal c w) := by
  obtain ⟨hr, ho⟩ := (decode_eq_ok_iff c w i).1 h
  rintro (hop | ⟨f, hf, hop, hm⟩ | hk | he)
  · simp [decodeOp_of_reservedOpcode c hop] at ho
  · exact hm ((fitsFormat_iff hf w).2 ⟨hop, hr⟩)
  · exact (not_kindIllegal_of_decode h).1 hk
  · exact (not_kindIllegal_of_decode h).2 he

/-- Settles O10: no ILLEGAL word decodes, and a word that does not decode answers ILLEGAL. -/
theorem illegalWordsAnswerAndChangeNothing : Obligations.IllegalWordsAnswerAndChangeNothing := by
  intro s s' w hw hill
  have hcfg : s'.cfg = s.cfg := by simpa [hw] using takeAgentStep_cfg s
  simp only [step, hw, runCommand, hcfg]
  cases hd : decode s.cfg w with
  | ok i => exact absurd hill (not_illegal_of_decode hd)
  | error cause => rfl

/-! ## BUFRD (R77, R137 to R139) -/

/-- A field put into a place where the word is 0 is read back. -/
theorem extractLsb'_or_field {n : Nat} (x : BitVec n) (k : Nat) (v : Word) (hv : v.extractLsb' k n = 0)
    (hk : k + n ≤ 32) : (v ||| x.setWidth 32 <<< k).extractLsb' k n = x := by
  rw [BitVec.extractLsb'_or, hv]
  ext i hi
  simp [show k + i < 32 by omega, BitVec.getLsbD_eq_getElem hi]

theorem decode_bufrdT (c : Config) (idx : BitVec 16) :
    decode c (0x80000000#32 ||| (idx.setWidth 32 <<< 8)) = .ok (.bufrdT idx) := by
  obtain ⟨hf, hd⟩ := (bufrdT_row_iff _).1 (Laws.RowMatch.bufrdT idx)
  have hi : Word.idx (encode (.bufrdT idx)) = idx := extractLsb'_or_field idx 8 _ (by decide) (by decide)
  change decode c (encode (.bufrdT idx)) = _
  simp [decode_bufrd c hf, hd, hi]

theorem decode_bufrdR (c : Config) (idx : BitVec 16) :
    decode c (0x88000000#32 ||| (idx.setWidth 32 <<< 8)) = .ok (.bufrdR idx) := by
  obtain ⟨hf, hd⟩ := (bufrdR_row_iff _).1 (Laws.RowMatch.bufrdR idx)
  have hi : Word.idx (encode (.bufrdR idx)) = idx := extractLsb'_or_field idx 8 _ (by decide) (by decide)
  change decode c (encode (.bufrdR idx)) = _
  simp [decode_bufrd c hf, hd, hi]

/-- The owner of R26, by `KIND`. -/
theorem busyTx_iff (s : State) : BusyTx s ↔ (s.session (s.owner .tx)).st = .inProgress := by
  cases hk : s.cfg.kind <;> simp [BusyTx, State.owner, hk]

theorem busyRx_iff (s : State) : BusyRx s ↔ (s.session (s.owner .rx)).st = .inProgress := by
  cases hk : s.cfg.kind <;> simp [BusyRx, State.owner, hk]

theorem hostMayAccess_iff (s : State) (B : Buf) (i : Nat) :
    s.hostMayAccess B i = true ↔ (s.session (s.owner B)).st ≠ .inProgress ∧ i < s.bufSize B := by
  simp [State.hostMayAccess]

theorem readBuffer_rejected {B : Buf} {i : Nat} {s : State}
    (h : (s.session (s.owner B)).st = .inProgress ∨ s.bufSize B ≤ i) : readBuffer B i s = .next s.rejected := by
  have hm : ¬ s.hostMayAccess B i = true := by
    rw [hostMayAccess_iff]
    rintro ⟨h1, h2⟩
    exact h.elim h1 (Nat.not_le_of_lt h2)
  simp [readBuffer, hm]

/-- RC = OK is 0, so the response word is its payload (R74). -/
theorem responseWord_ok (p : BitVec 28) : responseWord .ok p = p.setWidth 32 :=
  (BitVec.setWidth_eq_append (by decide)).symm

theorem readBuffer_accepted {B : Buf} {i : Nat} {s : State} (h1 : (s.session (s.owner B)).st ≠ .inProgress)
    (h2 : i < s.bufSize B) : readBuffer B i s = .next (answered s ((s.peek B i).setWidth 32)) := by
  have hm : s.hostMayAccess B i = true := (hostMayAccess_iff s B i).2 ⟨h1, h2⟩
  simp [readBuffer, hm, State.memRead, h2, State.respond, responseWord_ok]

/-- Settles O32: the words decode by BUFRD's rows, and the two cases of `readBuffer` are the four clauses. -/
theorem bufferReadAnswersTheByte : Obligations.BufferReadAnswersTheByte := by
  intro s idx
  simp only [busyTx_iff, busyRx_iff]
  exact ⟨decode_bufrdT s.cfg idx, decode_bufrdR s.cfg idx, readBuffer_rejected (B := .tx),
    readBuffer_rejected (B := .rx), readBuffer_accepted (B := .tx), readBuffer_accepted (B := .rx)⟩

/-! ## The response of a command (R74) -/

/-- The commands whose OK response has a payload: STATUS and BUFRD (R74, R76, R77). -/
def Reports (i : Instr) : Prop :=
  i = .statusT ∨ i = .statusR ∨ i = .statusX ∨ (∃ k, i = .bufrdT k) ∨ ∃ k, i = .bufrdR k

/-- What the command `i`, run from `s`, answers (R74). -/
inductive AnswersOnce (i : Instr) (s t : State) : Prop where
  /-- the command was refused -/
  | rejected (h : t = s.rejected)
  /-- the command is another `KIND`'s, or its endpoint is out of range -/
  | illegal (h : t = s.illegal)
  /-- the command's effect left the command port alone, and then it answered OK -/
  | ok (u : State) (p : BitVec 28) (effect : u.responses = s.responses) (payload : p = 0 ∨ Reports i)
      (h : t = u.respond .ok p)

theorem pump_responses (s t : State) (id : SessionId) (h : s.pump id = .ok t) : t.responses = s.responses := by
  cases id with
  | t => simp [pump_t_cases s t h]
  | r => simp [pump_r_cases s t h]
  | x => simp [pump_x_cases s t h, State.pumpedX]

@[simp] theorem livenessCheck_responses (s : State) : s.livenessCheck.responses = s.responses := by
  rcases livenessCheck_cases s with h | ⟨h, -⟩ | ⟨h, -⟩ <;> simp [h]

theorem startSession_answersOnce {i : Instr} {k : SessionId} {s t p : State} {n : Nat}
    {body : State → Except Fault State} (hbody : body s = p.pump k) (hp : p.responses = s.responses)
    (h : startSession k n body s = .next t) : AnswersOnce i s t := by
  rcases startSession_cases k n body s t h with h | ⟨-, -, -, u, hu, h⟩
  · exact .rejected h
  · exact .ok u 0 ((pump_responses p u k (hbody ▸ hu)).trans hp) (.inl rfl) h

theorem acknowledge_answersOnce (i : Instr) (s : State) (id : SessionId) : AnswersOnce i s (s.acknowledge id) := by
  unfold State.acknowledge
  split
  · exact .ok _ 0 (by simp) (.inl rfl) rfl
  · exact .rejected rfl

theorem driveSelect_answersOnce (i : Instr) (s : State) (cs : Option Endpoint) :
    AnswersOnce i s (s.driveSelect cs) := by
  unfold State.driveSelect
  split
  · exact .rejected rfl
  · exact .ok _ 0 (by simp) (.inl rfl) rfl

theorem writeBuffer_answersOnce {i : Instr} {B : Buf} {k : Nat} {v : Byte} {s t : State}
    (h : writeBuffer B k v s = .next t) : AnswersOnce i s t := by
  rcases writeBuffer_cases B k v s t h with h | ⟨-, -, h⟩
  · exact .rejected h
  · exact .ok _ 0 (by simp) (.inl rfl) h

theorem readBuffer_answersOnce {i : Instr} (hi : Reports i) {B : Buf} {k : Nat} {s t : State}
    (h : readBuffer B k s = .next t) : AnswersOnce i s t := by
  rcases readBuffer_cases B k s t h with h | ⟨-, -, h⟩
  · exact .rejected h
  · exact .ok s _ rfl (.inr hi) h

/-- A command that answers a next state has answered once. -/
theorem exec_answersOnce (i : Instr) (s t : State) (h : exec i s = .next t) : AnswersOnce i s t := by
  have ill : AnswersOnce i s s.illegal := .illegal rfl
  revert t
  cases i with
  | startT len => exact of_onKind ill fun _ t h => startSession_answersOnce rfl (by simp) h
  | startR len => exact of_onKind ill fun _ t h => startSession_answersOnce rfl (by simp) h
  | startX ep len =>
    refine of_onKind ill fun _ => ?_
    cases ep with
    | none => exact fun t h => startSession_answersOnce rfl (by simp) h
    | some e => exact of_onEndpoint ill fun t h => startSession_answersOnce rfl (by simp) h
  | statusT => exact of_onKind_next ill (.ok s _ rfl (by simp [Reports]) rfl)
  | statusR => exact of_onKind_next ill (.ok _ _ (by split <;> simp) (by simp [Reports]) rfl)
  | statusX => exact of_onKind_next ill (.ok s _ rfl (by simp [Reports]) rfl)
  | ackT => exact of_onKind_next ill (acknowledge_answersOnce _ s .t)
  | ackR => exact of_onKind_next ill (acknowledge_answersOnce _ s .r)
  | ackX => exact of_onKind_next ill (acknowledge_answersOnce _ s .x)
  | select e => exact of_onKind ill fun _ => of_onEndpoint ill fun t h =>
      Host.Outcome.next.inj h ▸ driveSelect_answersOnce _ s _
  | deselect => exact of_onKind_next ill (driveSelect_answersOnce _ s none)
  | settmo nt tmo => exact of_onKind_next ill (.ok _ 0 (by simp) (.inl rfl) rfl)
  | bufwrT idx data => exact fun t h => writeBuffer_answersOnce h
  | bufwrR idx data => exact fun t h => writeBuffer_answersOnce h
  | bufrdT idx => exact fun t h => readBuffer_answersOnce (by simp [Reports]) h
  | bufrdR idx => exact fun t h => readBuffer_answersOnce (by simp [Reports]) h

/-- Settles O17: the three answers of `exec_answersOnce`, as response words. -/
theorem everyCommandReturnsOneResponse : Obligations.EveryCommandReturnsOneResponse := by
  intro i s t h
  cases exec_answersOnce i s t h with
  | rejected h => exact .inl h
  | illegal h => exact .inr (.inl h)
  | ok u p effect payload h => exact .inr (.inr ⟨p, by rw [h, respond_responses, effect]; rfl, payload⟩)

end Sys2Proof.Machine

/-! SUPPORT. What a pump, a command and an event do on the bytes' path (both FIFOs, the shift register, the wire), said
once, and the statements about the pump (spec/40_pump.md R82 to R95): the interrupt requests and events, the chunk in
flight on SPI, and the order of the bytes sent. -/

namespace Sys2Proof.Machine

/-! ## The requests and the interrupt events (R91 to R93) -/

theorem req_t_iff (s : State) : s.req .t = true ↔ s.sT.ie = true ∧ s.sT.thr + s.txq.length ≤ s.cfg.fifoCap := by
  simp only [State.req, Bool.and_eq_true, decide_eq_true_eq]
  rfl

theorem req_r_iff (s : State) : s.req .r = true ↔ s.sR.ie = true ∧ s.sR.thr ≤ s.rxq.length := by
  simp only [State.req, Bool.and_eq_true, decide_eq_true_eq]
  rfl

theorem req_x_iff (s : State) : s.req .x = true ↔ s.sX.ie = true ∧ s.sX.thr ≤ s.rxq.length := by
  simp only [State.req, Bool.and_eq_true, decide_eq_true_eq]
  rfl

/-- Settles O15: the model's room test is R91's inequality with the level of TXQ on the other side. -/
theorem interruptRequestsAreLevels : Obligations.InterruptRequestsAreLevels := by
  intro s
  exact ⟨(req_t_iff s).trans (and_congr_right fun _ => by omega), req_r_iff s, req_x_iff s⟩

/-- An interrupt event is its session's request, on the session's `KIND` (R93, R146). -/
theorem enabled_irqOf_iff (s : State) (id : SessionId) :
    s.enabled (irqOf id) = true ↔ s.req id = true ∧ (s.cfg.kind = if id = .x then .spi else .uart) := by
  cases id <;> simp [irqOf, State.enabled, and_comm]

/-- An enabled interrupt event runs its session's pump (R93). -/
theorem execEvent_irqOf {s t : State} {id : SessionId} (he : s.enabled (irqOf id) = true) (h : s.pump id = .ok t) :
    execEvent (irqOf id) s = .next t := by
  have hfire : s.fire (irqOf id) = s.pump id := by cases id <;> rfl
  simp [execEvent, he, hfire, h, eventOutcome]

/-! ## The epilogue of a running session (R82) -/

/-- A running session's fields after a pump that moved `n` bytes (R82). -/
theorem epilogue_moved {f : Session} (busy : f.st = .inProgress) (n cap : Nat) :
    (f.moved n).epilogue cap =
      { st := if f.cur + n = f.len then .finished else .inProgress, len := f.len, cur := f.cur + n,
        thr := min (f.len - (f.cur + n)) cap, ie := decide (f.cur + n ≠ f.len) } := by
  by_cases hc : f.cur + n = f.len <;> simp [Session.epilogue, hc, busy]

/-- Settles O40: a completed pump ends with the epilogue of its own session, by `pump_session`. -/
theorem everyPumpEndsWithTheEpilogue : Obligations.EveryPumpEndsWithTheEpilogue := by
  intro s t id busy _ h
  obtain ⟨m, -, -, hsession, -⟩ := pump_session s t id h
  rw [hsession, pump_cfg s t id h, epilogue_moved busy]
  by_cases hc : (s.session id).cur + m = (s.session id).len <;> simp [hc]

/-! ## What each interrupt event does (R83 to R85) -/

/-- Settles O37: the event is `Pump(S_T)`, whose whole effect `pump_t_ok` gives. -/
theorem transmitInterruptRefills : Obligations.TransmitInterruptRefills := by
  rintro s n rfl hk hreq busy hcur hlen -
  rw [← epilogue_moved busy]
  exact execEvent_irqOf (id := .t) ((enabled_irqOf_iff s .t).2 ⟨hreq, hk⟩) (pump_t_ok s hcur hlen)

/-- RxBuf after `n` bytes of RXQ were stored from the cursor: those bytes in order, and every other byte as before. -/
theorem peek_stored {s t : State} {i n : Nat} (hn : n ≤ s.rxq.length)
    (h : t.rxBuf = Memory.store s.rxBuf i (s.rxq.take n)) :
    (∀ j, j < n → some (t.peek .rx (i + j)) = s.rxq[j]?) ∧
      ∀ k, k < i ∨ i + n ≤ k → t.peek .rx k = s.peek .rx k := by
  have hlen : (s.rxq.take n).length = n := List.length_take_of_le hn
  refine ⟨fun j hj => ?_, fun k hk => ?_⟩
  · rw [peek_store s t _ i _ h, dif_pos (by omega)]
    simp [List.getElem?_eq_getElem (Nat.lt_of_lt_of_le hj hn)]
  · rw [peek_store s t _ i _ h, dif_neg (by omega)]

/-- Settles O38: the event is `Pump(S_R)`, whose whole effect `pump_r_ok` gives. -/
theorem receiveInterruptDrains : Obligations.ReceiveInterruptDrains := by
  rintro s n rfl hk hreq busy hcur hlen
  refine ⟨_, execEvent_irqOf (id := .r) ((enabled_irqOf_iff s .r).2 ⟨hreq, hk⟩) (pump_r_ok s hcur hlen), ?_,
    peek_stored (Nat.min_le_right ..) rfl⟩
  rw [← epilogue_moved busy]
  rfl

/-- Settles O39: the event is `Pump(S_X)`, whose whole effect `pump_x_ok` gives. -/
theorem spiInterruptDrainsThenFills : Obligations.SpiInterruptDrainsThenFills := by
  rintro s n k rfl hkn hk hreq busy hcur hlen hroom
  refine ⟨_, execEvent_irqOf (id := .x) ((enabled_irqOf_iff s .x).2 ⟨hreq, hk⟩) (pump_x_ok s k hcur hlen hkn hroom), ?_,
    peek_stored (Nat.min_le_right ..) rfl⟩
  rw [hkn, ← epilogue_moved busy]
  rfl

/-! ## One chunk in flight (R88) -/

/-- What R88 says of the FIFOs on SPI. -/
structure OneChunk (s : State) : Prop where
  in_flight : s.sX.st = .inProgress → s.txq.length + s.rxq.length = s.sX.thr
  drained : s.sX.st ≠ .inProgress → s.txq = [] ∧ s.rxq = []
  no_overflow : s.rxovf = false

theorem SpiInv.oneChunk {s : State} (h : SpiInv s) : OneChunk s :=
  ⟨h.in_flight, h.drained, h.no_overflow⟩

/-- Where S_X's request holds, the whole chunk has come back (R88). -/
theorem OneChunk.chunk_back {s : State} {cap fifoCap : Nat} (hs : OneChunk s) (hx : SessionInv s.sX cap fifoCap)
    (hreq : s.req .x = true) : s.rxq.length = s.sX.thr ∧ s.txq = [] := by
  obtain ⟨hie, hthr⟩ := (req_x_iff s).1 hreq
  have hsum := hs.in_flight (hx.ie.1 hie)
  exact ⟨by omega, List.eq_nil_of_length_eq_zero (by omega)⟩

/-! ## An interrupt moves its whole threshold and its request falls (R93) -/

/-- A threshold that does not complete the session is a full FIFO (R82). -/
theorem SessionInv.thr_full {f : Session} {cap fifoCap : Nat} (h : SessionInv f cap fifoCap)
    (busy : f.st = .inProgress) (hmore : f.cur + f.thr ≠ f.len) : f.thr = fifoCap ∧ f.cur + f.thr < f.len := by
  have hthr := h.thr busy
  have hcur := h.cur_le
  omega

/-- `Pump(S_T)` with room for the threshold moves it whole; a session not complete then has filled TXQ (R91, R93). -/
theorem pump_t_falls (s : State) (hs : SessionInv s.sT s.cfg.nTx s.cfg.fifoCap) (hcap : 1 ≤ s.cfg.fifoCap)
    (hreq : s.req .t = true) :
    ∃ t, s.pump .t = .ok t ∧ t.sT.cur = s.sT.cur + s.sT.thr ∧ t.req .t = false := by
  obtain ⟨hon, hroom⟩ := (req_t_iff s).1 hreq
  have busy := hs.ie.1 hon
  have hthr := hs.thr busy
  have hcount : s.fillCount = s.sT.thr := by simp only [State.fillCount]; omega
  refine ⟨_, pump_t_ok s hs.cur_le hs.len_le, by simp [hcount], ?_⟩
  rw [Bool.eq_false_iff, Ne, req_t_iff]
  rintro ⟨hie, hlevel⟩
  obtain ⟨hfull, hmore⟩ := hs.thr_full busy (by simpa [hcount, epilogue_moved busy] using hie)
  simp [hcount, epilogue_moved busy] at hlevel
  omega

/-- `Pump(S_R)` with the threshold waiting moves it whole; a session not complete then has emptied RXQ (R92, R93). -/
theorem pump_r_falls (s : State) (hs : SessionInv s.sR s.cfg.nRx s.cfg.fifoCap) (hcap : 1 ≤ s.cfg.fifoCap)
    (hrxq : s.rxq.length ≤ s.cfg.fifoCap) (hreq : s.req .r = true) :
    ∃ t, s.pump .r = .ok t ∧ t.sR.cur = s.sR.cur + s.sR.thr ∧ t.req .r = false := by
  obtain ⟨hon, hwait⟩ := (req_r_iff s).1 hreq
  have busy := hs.ie.1 hon
  have hthr := hs.thr busy
  have hcount : s.drainCount .r = s.sR.thr := by simp only [State.drainCount, session_r]; omega
  refine ⟨_, pump_r_ok s hs.cur_le hs.len_le, by simp [hcount], ?_⟩
  rw [Bool.eq_false_iff, Ne, req_r_iff]
  rintro ⟨hie, hlevel⟩
  obtain ⟨hfull, hmore⟩ := hs.thr_full busy (by simpa [hcount, epilogue_moved busy] using hie)
  simp [hcount, epilogue_moved busy] at hlevel
  omega

/-- `Pump(S_X)` with the chunk back moves it whole and leaves RXQ empty (R88, R92, R93). -/
theorem pump_x_falls (s : State) (hs : SessionInv s.sX (min s.cfg.nTx s.cfg.nRx) s.cfg.fifoCap)
    (hcap : 1 ≤ s.cfg.fifoCap) (hone : OneChunk s) (hreq : s.req .x = true) :
    ∃ t, s.pump .x = .ok t ∧ t.sX.cur = s.sX.cur + s.sX.thr ∧ t.req .x = false := by
  have busy := hs.ie.1 ((req_x_iff s).1 hreq).1
  have hthr := hs.thr busy
  obtain ⟨hback, hempty⟩ := hone.chunk_back hs hreq
  have hcount : s.drainCount .x = s.sX.thr := by simp only [State.drainCount, session_x]; omega
  refine ⟨_, pump_x_ok s _ hs.cur_le hs.len_le rfl (.inr (by simp [hempty])), by simp [State.pumpedX, hcount], ?_⟩
  rw [Bool.eq_false_iff, Ne, req_x_iff]
  rintro ⟨hie, hlevel⟩
  obtain ⟨hfull, hmore⟩ := hs.thr_full busy (by simpa [State.pumpedX, hcount, epilogue_moved busy] using hie)
  simp [State.pumpedX, hcount, epilogue_moved busy] at hlevel
  omega

/-- Settles O41: an enabled interrupt is its request, and each pump moves its threshold and ends the request. -/
theorem interruptRunsThePumpAndFalls : Obligations.InterruptRunsThePumpAndFalls := by
  intro s id hinv
  refine ⟨enabled_irqOf_iff s id, fun hie => ?_, fun he => ?_⟩
  · by_contra he
    simp [ie_of_enabled s id (by simpa using he)] at hie
  · obtain ⟨hreq, hk⟩ := (enabled_irqOf_iff s id).1 he
    have hcap := hinv.cfg.1.1
    have hpump : ∃ t, s.pump id = .ok t ∧ (t.session id).cur = (s.session id).cur + (s.session id).thr ∧
        t.req id = false := by
      cases id with
      | t => exact pump_t_falls s hinv.t hcap hreq
      | r => exact pump_r_falls s hinv.r hcap hinv.rxq_le hreq
      | x => exact pump_x_falls s hinv.x hcap (hinv.spi hk).oneChunk hreq
    obtain ⟨t, hp, hcur, hfall⟩ := hpump
    refine ⟨t, execEvent_irqOf he hp, hp, hcur, hfall, ?_⟩
    rw [Bool.eq_false_iff, Ne, enabled_irqOf_iff]
    simp [hfall]

/-! ## What a command does on the bytes' path -/

/-- Both FIFOs, the shift register and the wire are as before. -/
structure SameBytes (s t : State) : Prop where
  txq : t.txq = s.txq
  rxq : t.rxq = s.rxq
  txsh : t.txsh = s.txsh
  wire : t.wire = s.wire

/-- What a command run from `s` does on the bytes' path, with what R88 says of S_X. -/
inductive CommandMoves (s t : State) : Prop where
  /-- no byte moves, and S_X is running with the same threshold as before or not running as before -/
  | nothing (bytes : SameBytes s t) (rxovf : t.rxovf = s.rxovf)
      (busy : t.sX.st = .inProgress ↔ s.sX.st = .inProgress) (thr : t.sX.thr = s.sX.thr)
  /-- START of session `k` was accepted and the pump ran from `p`, where that session is open (R110 to R112) -/
  | started (k : SessionId) (n : Nat) (p u : State) (kind : s.cfg.kind = if k = .x then .spi else .uart)
      (idle : (s.session k).st = .idle) (opened : StartsFrom s p k n) (bytes : SameBytes s p)
      (rxovf : p.rxovf = false ∨ p.rxovf = s.rxovf) (pump : p.pump k = .ok u) (h : t = u.respond .ok 0)

theorem CommandMoves.of_kept {s t : State} (bytes : SameBytes s t) (rxovf : t.rxovf = s.rxovf) (sX : t.sX = s.sX) :
    CommandMoves s t :=
  .nothing bytes rxovf (by rw [sX]) (by rw [sX])

/-- An answer alone moves no byte (R74). -/
theorem respond_moves (s : State) (rc : ResultCode) (p : BitVec 28) : CommandMoves s (s.respond rc p) :=
  .of_kept ⟨rfl, rfl, rfl, rfl⟩ rfl rfl

theorem startSession_moves {k : SessionId} {s t p : State} {n : Nat} {body : State → Except Fault State}
    (kind : s.cfg.kind = if k = .x then .spi else .uart) (hbody : body s = p.pump k) (opened : StartsFrom s p k n)
    (bytes : SameBytes s p) (rxovf : p.rxovf = false ∨ p.rxovf = s.rxovf) (h : startSession k n body s = .next t) :
    CommandMoves s t := by
  rcases startSession_cases k n body s t h with rfl | ⟨idle, -, -, u, hu, h⟩
  · exact respond_moves s _ _
  · exact .started k n p u kind idle opened bytes rxovf (hbody ▸ hu) h

theorem startX_moves {s t : State} {ep : Option Endpoint} {len : BitVec 16} (hk : s.cfg.kind = .spi)
    (h : startSession .x len.toNat (startBodyX ep len.toNat) s = .next t) : CommandMoves s t :=
  startSession_moves (k := .x) hk rfl (startsFrom_openSession s _ .x _ (by simp) (by simp) (by simp))
    ⟨by simp, by simp, by simp, by simp⟩ (.inl (by simp)) h

/-- An acknowledged session was not running and is not; its threshold stays (R117). -/
theorem acknowledge_moves (s : State) (k : SessionId) : CommandMoves s (s.acknowledge k) := by
  unfold State.acknowledge
  split
  · next done =>
    refine .nothing ⟨by simp, by simp, by simp, by simp⟩ (by simp) ?_ ?_
    · cases k with
      | t => rfl
      | r => rfl
      | x => rcases done with h | h <;> simp [show s.sX.st = _ from h]
    · cases k <;> rfl
  · exact respond_moves s _ _

theorem livenessCheck_moves (s : State) (id : SessionId) : CommandMoves s (s.livenessCheck.reportStatus id) := by
  rcases livenessCheck_cases s with h | ⟨h, -⟩ | ⟨h, -⟩ <;> rw [h] <;> exact .of_kept ⟨rfl, rfl, rfl, rfl⟩ rfl rfl

theorem driveSelect_moves (s : State) (cs : Option Endpoint) : CommandMoves s (s.driveSelect cs) := by
  unfold State.driveSelect
  split
  · exact respond_moves s _ _
  · exact .of_kept ⟨rfl, rfl, rfl, rfl⟩ rfl rfl

theorem writeBuffer_moves {B : Buf} {k : Nat} {v : Byte} {s t : State} (h : writeBuffer B k v s = .next t) :
    CommandMoves s t := by
  rcases writeBuffer_cases B k v s t h with rfl | ⟨-, -, rfl⟩
  · exact respond_moves s _ _
  · exact .of_kept ⟨by simp, by simp, by simp, by simp⟩ (by simp) (by simp)

theorem readBuffer_moves {B : Buf} {k : Nat} {s t : State} (h : readBuffer B k s = .next t) : CommandMoves s t := by
  rcases readBuffer_cases B k s t h with rfl | ⟨-, -, rfl⟩ <;> exact respond_moves s _ _

/-- What any command does on the bytes' path. -/
theorem exec_moves (i : Instr) (s t : State) (h : exec i s = .next t) : CommandMoves s t := by
  have ill : CommandMoves s s.illegal := respond_moves s _ _
  revert t
  cases i with
  | startT len =>
    exact of_onKind ill fun hk t h => startSession_moves (k := .t) hk rfl
      (startsFrom_openSession s s .t _ (by simp) rfl rfl) ⟨rfl, rfl, rfl, rfl⟩ (.inr rfl) h
  | startR len =>
    exact of_onKind ill fun hk t h => startSession_moves (k := .r) hk rfl
      (startsFrom_openSession s (s.setOverflow false) .r _ (by simp) rfl rfl).loadWatch ⟨rfl, rfl, rfl, rfl⟩
      (.inl rfl) h
  | startX ep len =>
    refine of_onKind ill fun hk => ?_
    cases ep with
    | none => exact fun t h => startX_moves hk h
    | some e => exact of_onEndpoint ill fun t h => startX_moves hk h
  | statusT => exact of_onKind_next ill (respond_moves s _ _)
  | statusR =>
    refine of_onKind_next ill ?_
    split
    · exact livenessCheck_moves s .r
    · exact respond_moves s _ _
  | statusX => exact of_onKind_next ill (respond_moves s _ _)
  | ackT => exact of_onKind_next ill (acknowledge_moves s .t)
  | ackR => exact of_onKind_next ill (acknowledge_moves s .r)
  | ackX => exact of_onKind_next ill (acknowledge_moves s .x)
  | select e => exact of_onKind ill fun _ => of_onEndpoint ill fun t h =>
      Host.Outcome.next.inj h ▸ driveSelect_moves s _
  | deselect => exact of_onKind_next ill (driveSelect_moves s none)
  | settmo nt tmo => exact of_onKind_next ill (.of_kept ⟨rfl, rfl, rfl, rfl⟩ rfl rfl)
  | bufwrT idx data => exact fun t h => writeBuffer_moves h
  | bufwrR idx data => exact fun t h => writeBuffer_moves h
  | bufrdT idx => exact fun t h => readBuffer_moves h
  | bufrdR idx => exact fun t h => readBuffer_moves h

/-! ## The bytes sent, in order (R95) -/

/-- Bytes were appended to TXQ at most: the wire and the shift register are as before. -/
structure OnlyQueues (s t : State) : Prop where
  txsh : t.txsh = s.txsh
  wire : t.wire = s.wire
  txq : ∃ l, t.txq = s.txq ++ l

theorem OnlyQueues.outStream {s t : State} (h : OnlyQueues s t) : ∃ l, t.outStream = s.outStream ++ l := by
  obtain ⟨l, htxq⟩ := h.txq
  exact ⟨l, by simp [State.outStream, h.txsh, h.wire, htxq]⟩

theorem SameBytes.onlyQueues {s t : State} (h : SameBytes s t) : OnlyQueues s t :=
  ⟨h.txsh, h.wire, [], by rw [h.txq, List.append_nil]⟩

/-- A pump appends bytes of TxBuf to TXQ, S_R's pump none (R83 to R85). -/
theorem pump_onlyQueues (s t : State) (id : SessionId) (h : s.pump id = .ok t) : OnlyQueues s t := by
  cases id with
  | t =>
    obtain rfl := pump_t_cases s t h
    exact ⟨by simp, by simp, _, by simp; rfl⟩
  | r =>
    obtain rfl := pump_r_cases s t h
    exact ⟨by simp, by simp, [], by simp⟩
  | x =>
    obtain rfl := pump_x_cases s t h
    exact ⟨by simp [State.pumpedX], by simp [State.pumpedX], _, by simp [State.pumpedX]; rfl⟩

theorem CommandMoves.onlyQueues {s t : State} (h : CommandMoves s t) : OnlyQueues s t := by
  cases h with
  | nothing bytes _ _ _ => exact bytes.onlyQueues
  | started k n p u _ _ _ bytes _ pump h =>
    obtain ⟨htxsh, hwire, l, htxq⟩ := pump_onlyQueues p u k pump
    subst h
    exact ⟨htxsh.trans bytes.txsh, hwire.trans bytes.wire, l, htxq.trans (by rw [bytes.txq])⟩

/-- What the event `e` does to the bytes sent and to be sent. -/
inductive EventSends (e : Event) (s t : State) : Prop where
  /-- bytes were queued at most -/
  | queues (h : OnlyQueues s t)
  /-- the sequence of bytes is the same, and TXQ too unless the collaborators shifted -/
  | shifts (same : t.outStream = s.outStream) (who : t.txq = s.txq ∨ e = .txLoad ∨ ∃ r, e = .xchg r)

theorem outStream_congr {s t : State} (wire : t.wire = s.wire) (txsh : t.txsh = s.txsh) (txq : t.txq = s.txq) :
    t.outStream = s.outStream := by
  simp [State.outStream, wire, txsh, txq]

/-- An arriving byte changes nothing on the send side (R150). -/
theorem arrive_sends {s t : State} {b : Byte} (h : s.arrive b = .ok t) :
    t.txq = s.txq ∧ t.outStream = s.outStream := by
  rw [arrive_eq] at h
  obtain rfl := Except.ok.inj h
  split <;> exact ⟨rfl, rfl⟩

/-- TX_LOAD into an empty shift register moves the head of TXQ within the sequence (R148). -/
theorem txLoad_outStream {s t : State} (hsh : s.txsh = none) (h : s.txLoad = .ok t) : t.outStream = s.outStream := by
  obtain ⟨b, l, hq, rfl⟩ := txLoad_cases s t h
  simp [State.outStream, hsh, hq]

/-- TX_EMIT moves the byte in the shift register within the sequence (R149). -/
theorem txEmit_sends (s : State) : s.txEmit.txq = s.txq ∧ s.txEmit.outStream = s.outStream := by
  unfold State.txEmit
  split
  · next b hsh => exact ⟨rfl, by simp [State.outStream, hsh, WireEntry.byte]⟩
  · exact ⟨rfl, rfl⟩

/-- XCHG, with no shift register between TXQ and the wire, moves the head of TXQ within the sequence (R152). -/
theorem xchg_outStream {s t : State} {r : Byte} (hsh : s.txsh = none) (h : s.xchg r = .ok t) :
    t.outStream = s.outStream := by
  obtain ⟨b, l, hq, harr⟩ := xchg_cases s t r h
  rw [(arrive_sends harr).2]
  simp [State.outStream, hsh, hq, WireEntry.byte]

theorem tick_onlyQueues (s : State) : OnlyQueues s s.tick := by
  refine SameBytes.onlyQueues ?_
  rcases tick_cases s with h | ⟨b, -, -, -, ⟨-, h⟩ | ⟨-, h⟩⟩ <;> rw [h] <;> exact ⟨rfl, rfl, rfl, rfl⟩

/-- What any event does to the bytes sent and to be sent. -/
theorem execEvent_sends (e : Event) (s t : State) (hspi : s.cfg.kind = .spi → s.txsh = none)
    (h : execEvent e s = .next t) : EventSends e s t := by
  rcases execEvent_cases e s t h with ⟨he, h⟩ | ⟨-, rfl⟩
  · cases e with
    | irqT => exact .queues (pump_onlyQueues s t .t h)
    | irqR => exact .queues (pump_onlyQueues s t .r h)
    | irqX => exact .queues (pump_onlyQueues s t .x h)
    | tick => exact Except.ok.inj h ▸ .queues (tick_onlyQueues s)
    | txLoad =>
      have hsh : s.txsh = none := by simp_all [State.enabled]
      exact .shifts (txLoad_outStream hsh h) (.inr (.inl rfl))
    | txEmit => exact Except.ok.inj h ▸ .shifts (txEmit_sends s).2 (.inl (txEmit_sends s).1)
    | rxByte b => exact .shifts (arrive_sends h).2 (.inl (arrive_sends h).1)
    | xchg r =>
      have hk : s.cfg.kind = .spi := by simp_all [State.enabled]
      exact .shifts (xchg_outStream (hspi hk) h) (.inr (.inr ⟨r, rfl⟩))
  · exact .queues (SameBytes.onlyQueues ⟨rfl, rfl, rfl, rfl⟩)

theorem takeAgentStep_sameBytes (s : State) : SameBytes s s.takeAgentStep.2 := by
  obtain ⟨l, n, h⟩ := takeAgentStep_frame s
  rw [h]
  exact ⟨rfl, rfl, rfl, rfl⟩

/-- Settles O54: commands only queue bytes, and each event queues bytes or shifts them within the sequence. -/
theorem queuedBytesAreAlwaysEmittedInOrder : Obligations.QueuedBytesAreAlwaysEmittedInOrder := by
  intro s t hinv hstep
  have hb := takeAgentStep_sameBytes s
  have hout := outStream_congr hb.wire hb.txsh hb.txq
  have queues : OnlyQueues s.takeAgentStep.2 t → (∃ l, t.outStream = s.outStream ++ l) ∧ ∃ l, t.txq = s.txq ++ l :=
    fun h => ⟨hout ▸ h.outStream, hb.txq ▸ h.txq⟩
  rcases step_cases s t hstep with ⟨w, i, -, -, hi⟩ | ⟨w, c, -, -, rfl⟩ | ⟨e, he, hs⟩
  · exact (queues (exec_moves i _ t hi).onlyQueues).imp_right .inl
  · exact (queues (respond_moves _ .illegal 0).onlyQueues).imp_right .inl
  · have hspi : s.takeAgentStep.2.cfg.kind = .spi → s.takeAgentStep.2.txsh = none := by
      rw [takeAgentStep_cfg, hb.txsh]
      exact fun hk => (hinv.spi hk).no_shift
    cases execEvent_sends e _ t hspi hs with
    | queues h => exact (queues h).imp_right .inl
    | shifts same who =>
      refine ⟨⟨[], by rw [same, hout, List.append_nil]⟩, ?_⟩
      rcases who with h | rfl | ⟨r, rfl⟩
      · exact .inl ⟨[], by rw [h, hb.txq, List.append_nil]⟩
      · exact .inr (.inl he)
      · exact .inr (.inr ⟨r, he⟩)

/-! ## Every step on SPI keeps one chunk in flight (R88) -/

/-- R88 depends on the FIFOs, the overflow flag, and S_X's status and threshold alone. -/
theorem OneChunk.congr {s t : State} (hs : OneChunk s) (bytes : SameBytes s t) (rxovf : t.rxovf = s.rxovf)
    (busy : t.sX.st = .inProgress ↔ s.sX.st = .inProgress) (thr : t.sX.thr = s.sX.thr) : OneChunk t :=
  ⟨by rw [busy, bytes.txq, bytes.rxq, thr]; exact hs.in_flight,
    by rw [Ne, busy, bytes.txq, bytes.rxq]; exact hs.drained, rxovf.trans hs.no_overflow⟩

/-- `Pump(S_X)` of a running session with TXQ empty and no excess in RXQ leaves one chunk in flight (R85). -/
theorem pump_x_oneChunk {s t : State} (h : s.pump .x = .ok t) (busy : s.sX.st = .inProgress) (htxq : s.txq = [])
    (hrxq : s.rxq.length ≤ s.sX.len - s.sX.cur) (hovf : s.rxovf = false) : OneChunk t := by
  have hcount : s.drainCount .x = s.rxq.length := by simp only [State.drainCount, session_x]; omega
  obtain rfl := pump_x_cases s t h
  rw [hcount]
  refine ⟨fun _ => by simp [State.pumpedX, htxq, epilogue_moved busy], fun hdone => ?_, by simp [State.pumpedX, hovf]⟩
  have hend : s.sX.cur + s.rxq.length = s.sX.len := by simpa [State.pumpedX, epilogue_moved busy] using hdone
  simp [State.pumpedX, htxq, hend]

/-- The next chunk goes out when the last one is back (R85, R93). -/
theorem irqX_keeps_oneChunk {s t : State} {cap : Nat} (hs : OneChunk s) (hx : SessionInv s.sX cap s.cfg.fifoCap)
    (hreq : s.req .x = true) (h : s.pump .x = .ok t) : OneChunk t := by
  have busy := hx.ie.1 ((req_x_iff s).1 hreq).1
  obtain ⟨hback, hempty⟩ := hs.chunk_back hx hreq
  exact pump_x_oneChunk h busy hempty (by have := hx.thr busy; omega) hs.no_overflow

/-- An exchange moves one byte of the chunk from TXQ to RXQ, which has room for it (R152, R160). -/
theorem xchg_keeps_oneChunk {s t : State} {cap : Nat} {r : Byte} (hs : OneChunk s)
    (hx : SessionInv s.sX cap s.cfg.fifoCap) (h : s.xchg r = .ok t) : OneChunk t := by
  obtain ⟨b, l, hq, harr⟩ := xchg_cases s t r h
  have busy : s.sX.st = .inProgress := by
    by_contra hidle
    simp [(hs.drained hidle).1] at hq
  have hsum : l.length + 1 + s.rxq.length = s.sX.thr := by simpa [hq] using hs.in_flight busy
  have hroom : s.rxq.length < s.cfg.fifoCap := by have := hx.thr_le; omega
  rw [arrive_eq, if_pos (by simpa using hroom)] at harr
  obtain rfl := Except.ok.inj harr
  exact ⟨fun _ => by simp; omega, fun hdone => absurd busy (by simpa using hdone), by simp [hs.no_overflow]⟩

theorem execEvent_keeps_oneChunk (e : Event) (s t : State) {cap : Nat} (hk : s.cfg.kind = .spi)
    (hx : SessionInv s.sX cap s.cfg.fifoCap) (hs : OneChunk s) (h : execEvent e s = .next t) : OneChunk t := by
  rcases execEvent_cases e s t h with ⟨he, h⟩ | ⟨-, rfl⟩
  · cases e with
    | irqT => simp [State.enabled, hk] at he
    | irqR => simp [State.enabled, hk] at he
    | irqX => exact irqX_keeps_oneChunk hs hx ((enabled_irqOf_iff s .x).1 he).1 h
    | tick =>
      obtain rfl := Except.ok.inj h
      simpa [State.tick, hk] using hs
    | txLoad => simp [State.enabled, hk] at he
    | txEmit => simp [State.enabled, hk] at he
    | rxByte b => simp [State.enabled, hk] at he
    | xchg r => exact xchg_keeps_oneChunk hs hx h
  · exact hs

theorem CommandMoves.keeps_oneChunk {s t : State} (hm : CommandMoves s t) (hk : s.cfg.kind = .spi)
    (hs : OneChunk s) : OneChunk t := by
  cases hm with
  | nothing bytes rxovf busy thr => exact hs.congr bytes rxovf busy thr
  | started k n p u kind idle opened bytes rxovf pump h =>
    cases k with
    | t => simp [hk] at kind
    | r => simp [hk] at kind
    | x =>
      obtain ⟨htxq, hrxq⟩ := hs.drained (by simp [show s.sX.st = .idle from idle])
      have hopen : p.sX = s.sX.opened n := opened.session
      have hu : OneChunk u := pump_x_oneChunk pump (by rw [hopen]; rfl) (bytes.txq.trans htxq)
        (by simp [bytes.rxq, hrxq]) (rxovf.elim id fun hp => hp.trans hs.no_overflow)
      exact h ▸ hu.congr ⟨rfl, rfl, rfl, rfl⟩ rfl Iff.rfl rfl

/-- What a run on SPI keeps: the sessions' invariants and R88. -/
def SpiChunkInv (s : State) : Prop :=
  s.cfg.kind = .spi ∧ SessionsInv s ∧ OneChunk s

theorem step_keeps_spiChunkInv (s t : State) (hs : SpiChunkInv s) (h : step s = .next t) : SpiChunkInv t := by
  obtain ⟨hk, hsessions, hone⟩ := hs
  refine ⟨step_cfg s t h ▸ hk, step_keeps_sessionsInv s t hsessions h, ?_⟩
  obtain ⟨l, n, hframe⟩ := takeAgentStep_frame s
  have hk' : s.takeAgentStep.2.cfg.kind = .spi := by simpa using hk
  have hone' : OneChunk s.takeAgentStep.2 := by
    rw [hframe]
    exact hone.congr ⟨rfl, rfl, rfl, rfl⟩ rfl Iff.rfl rfl
  have hx : SessionInv s.takeAgentStep.2.sX (s.capacity .x) s.takeAgentStep.2.cfg.fifoCap := by
    rw [hframe]
    exact hsessions.2 .x
  rcases step_cases s t h with ⟨w, i, -, -, hi⟩ | ⟨w, c, -, -, rfl⟩ | ⟨e, -, he⟩
  · exact (exec_moves i _ t hi).keeps_oneChunk hk' hone'
  · exact (respond_moves _ .illegal 0).keeps_oneChunk hk' hone'
  · exact execEvent_keeps_oneChunk e _ t hk' hx hone' he

theorem spiChunkInv_reset (c : Config) (l : List AgentStep) (hc : c.wf) (hk : c.kind = .spi) :
    SpiChunkInv { State.resetOf c with schedule := l } :=
  ⟨hk, sessionsInv_reset c l hc, nofun, fun _ => ⟨rfl, rfl⟩, rfl⟩

/-- Settles O45: R88 holds after reset and every step keeps it; at IRQ_X the whole chunk is back. -/
theorem reachableSpiFifosHoldOneChunk : Obligations.ReachableSpiFifosHoldOneChunk := by
  intro c l n t hc hk hrun
  obtain ⟨-, hsessions, hone⟩ :=
    run_keeps (M := Sys2Proof.core) SpiChunkInv step_keeps_spiChunkInv n _ t (spiChunkInv_reset c l hc hk) hrun
  exact ⟨hone.in_flight, hone.drained, hone.no_overflow,
    fun he => hone.chunk_back (hsessions.2 .x) ((enabled_irqOf_iff t .x).1 he).1⟩

end Sys2Proof.Machine

/-! SUPPORT. The statements about the receive session's timeout (spec/41_timeout.md R97 to R103, spec/42_api.md R111,
R116): what START.R loads and takes, what STATUS.R's liveness check does branch by branch, and what TICK counts. -/

namespace Sys2Proof.Machine

/-! ## TICK (R98) -/

/-- A running receive session with a budget counts one tick, and at 0 or below it times out. -/
theorem tick_of_budget {s : State} {b : Int} (hk : s.cfg.kind = .uart) (busy : s.sR.st = .inProgress)
    (hb : s.watch.tmo = some b) :
    s.tick = if b - 1 ≤ 0 then (s.setBudget (b - 1)).endReceive .timedOut else s.setBudget (b - 1) := by
  simp [State.tick, hk, busy, hb]

/-- TICK has nothing to count on SPI, outside a running receive session, or without a budget. -/
theorem tick_of_no_budget {s : State} (h : s.cfg.kind = .spi ∨ s.sR.st ≠ .inProgress ∨ s.watch.tmo = none) :
    s.tick = s := by
  rcases h with hk | idle | hb
  · simp [State.tick, hk]
  · simp [State.tick, idle]
  · simp [State.tick, hb]

/-- TICK is enabled in every state. -/
theorem execEvent_tick (s : State) : execEvent .tick s = .next s.tick := rfl

/-- Settles O33: the three cases of `State.tick`, which every TICK runs. -/
theorem tickCountsTheBudgetDown : Obligations.TickCountsTheBudgetDown := by
  intro s
  simp only [execEvent_tick]
  refine ⟨rfl, fun b hk busy hb hleft => ?_, fun b hk busy hb hout => ?_, fun h => ?_⟩
  · rw [tick_of_budget hk busy hb, if_neg (Int.not_le.2 hleft)]
    rfl
  · rw [tick_of_budget hk busy hb, if_pos hout]
    rfl
  · rw [tick_of_no_budget h]

/-! ## STATUS.R and the liveness check (R101, R116) -/

theorem decode_statusR {c : Config} (hk : c.kind = .uart) : decode c 0x28000000#32 = .ok .statusR := by
  obtain ⟨hf, hd⟩ := (statusR_row_iff _).1 Laws.RowMatch.statusR
  change decode c (encode .statusR) = _
  simp [decode_status c hf, decodeBySession, hk, hd]

/-- A receive session has no TXF, so its report is its status code (R76). -/
theorem reportStatus_r_eq (s : State) :
    s.reportStatus .r = answered s (BitVec.ofNat 32 (statusNumber s.sR.st)) := by
  simpa [State.txf] using reportStatus_eq s .r

/-- A branch that continues reports InProgress. -/
theorem reportStatus_recordSnapshot {s : State} (busy : s.sR.st = .inProgress) :
    s.recordSnapshot.reportStatus .r = answered s.recordSnapshot 0x00000001#32 := by
  rw [reportStatus_r_eq, recordSnapshot_sR, busy]
  rfl

/-- A branch that ends the session reports the status it ends with. -/
theorem reportStatus_endReceive (s : State) (st : Status) :
    (s.endReceive st).reportStatus .r = answered (s.endReceive st) (BitVec.ofNat 32 (statusNumber st)) := by
  rw [reportStatus_r_eq, endReceive_sR]

theorem exec_statusR {s : State} (hk : s.cfg.kind = .uart) :
    exec .statusR s = .next ((if s.sR.st = .inProgress then s.livenessCheck else s).reportStatus .r) := by
  simp [exec, execStatusR, onKind, hk]

/-- Settles O24: the report after each branch of `State.livenessCheck`, in R101's order. -/
theorem statusOfReceiveRunsTheLivenessCheck : Obligations.StatusOfReceiveRunsTheLivenessCheck := by
  refine fun s hk => ⟨decode_statusR hk, fun idle => ?_, fun busy => ?_⟩ <;> rw [exec_statusR hk]
  · rw [if_neg idle, reportStatus_r_eq]
  · rw [if_pos busy]
    simp only [State.livenessCheck, apply_ite (State.reportStatus · .r), reportStatus_recordSnapshot busy,
      reportStatus_endReceive]
    rfl

/-! ## START.R (R97, R103, R111) -/

theorem decode_startR {c : Config} (hk : c.kind = .uart) (len : BitVec 16) :
    decode c (0x18000000#32 ||| len.setWidth 32) = .ok (.startR len) := by
  obtain ⟨hf, hd, hs, he⟩ := (startR_row_iff _).1 (Laws.RowMatch.startR len)
  have hl : Word.low16 (encode (.startR len)) = len := by
    simpa [encode, Word.low16] using extractLsb'_or_field len 0 0x18000000#32 (by decide) (by decide)
  change decode c (encode (.startR len)) = _
  simp [decode_start c hf, decodeStart, hk, hd, hs, he, hl]

/-- S_R opened with length `n`, the overflow flag cleared and the budget loaded: what START.R pumps. -/
def State.openedR (s : State) (n : Nat) : State := ((s.setOverflow false).openSession .r n).loadWatch

/-- An accepted START.R runs the pump of the opened session and answers OK. -/
theorem exec_startR_of_pump {s u : State} {len : BitVec 16} (hk : s.cfg.kind = .uart) (idle : s.sR.st = .idle)
    (pos : 1 ≤ len.toNat) (fits : len.toNat ≤ s.cfg.nRx) (hp : (s.openedR len.toNat).pump .r = .ok u) :
    exec (.startR len) s = .next (u.respond .ok 0) := by
  have hbody : startBodyR len.toNat s = .ok u := hp
  simp only [exec, execStartR, onKind, hk, if_true]
  rw [startSession_accepted .r _ _ s idle pos fits, hbody]
  rfl

theorem openedR_sR (s : State) (n : Nat) : (s.openedR n).sR = s.sR.opened n := rfl

/-- START.R's pump takes what waits in RXQ, up to the session's length (R84). -/
theorem openedR_drainCount (s : State) (n : Nat) : (s.openedR n).drainCount .r = min n s.rxq.length := rfl

/-- A session's fields after it was opened with length `n` and its first pump moved `m` bytes (R82, R111). -/
theorem epilogue_moved_opened (f : Session) (n m cap : Nat) :
    ((f.opened n).moved m).epilogue cap =
      { st := if m = n then .finished else .inProgress, len := n, cur := m, thr := min (n - m) cap,
        ie := decide (m ≠ n) } := by
  simpa [Session.opened] using epilogue_moved (f := f.opened n) rfl m cap

/-- Settles O20: START.R's pump is `Pump(S_R)` of the opened session, whose whole effect `pump_r_ok` gives. -/
theorem startReceiveTakesWaitingBytes : Obligations.StartReceiveTakesWaitingBytes := by
  rintro s len n m rfl rfl hk idle pos fits
  have hpump := pump_r_ok (s.openedR len.toNat) (Nat.zero_le _) fits
  rw [openedR_drainCount, openedR_sR, epilogue_moved_opened] at hpump
  refine ⟨decode_startR hk len, _, exec_startR_of_pump hk idle pos fits hpump, rfl, ?_⟩
  simpa using peek_stored (s := s) (i := 0) (Nat.min_le_right len.toNat s.rxq.length) rfl

end Sys2Proof.Machine

/-! SUPPORT. The statements about the commands of spec/42_api.md: START.T and START.X (R110, R112), ACK (R117, R118),
SETTMO (R119), SELECT and DESELECT (R120 to R122). Each command word decodes to its command, the command's effect is said
once, and no step of a running SPI session changes `cs`. -/

namespace Sys2Proof.Machine

/-! ## START.T (R110) -/

theorem decode_startT {c : Config} (hk : c.kind = .uart) (len : BitVec 16) :
    decode c (encode (.startT len)) = .ok (.startT len) := by
  obtain ⟨hf, hd, hs, he⟩ := (startT_row_iff _).1 (Laws.RowMatch.startT len)
  have hl : Word.low16 (encode (.startT len)) = len := by
    simpa [encode, Word.low16] using extractLsb'_or_field len 0 0x10000000#32 (by decide) (by decide)
  simp [decode_start c hf, decodeStart, hk, hd, hs, he, hl]

/-- An accepted START.T runs the pump of the opened session and answers OK. -/
theorem exec_startT_of_pump {s u : State} {len : BitVec 16} (hk : s.cfg.kind = .uart) (idle : s.sT.st = .idle)
    (pos : 1 ≤ len.toNat) (fits : len.toNat ≤ s.cfg.nTx) (hp : (s.openSession .t len.toNat).pump .t = .ok u) :
    exec (.startT len) s = .next (u.respond .ok 0) := by
  have hbody : startBodyT len.toNat s = .ok u := hp
  simp only [exec, execStartT, onKind, hk, if_true]
  rw [startSession_accepted .t _ _ s idle pos fits, hbody]
  rfl

/-- START.T's pump takes what TXQ has room for, up to the session's length (R83). -/
theorem openSession_t_fillCount (s : State) (n : Nat) :
    (s.openSession .t n).fillCount = min n (s.cfg.fifoCap - s.txq.length) := rfl

theorem openSession_t_sT (s : State) (n : Nat) : (s.openSession .t n).sT = s.sT.opened n := rfl

/-- Settles O19: START.T's pump is `Pump(S_T)` of the opened session, whose whole effect `pump_t_ok` gives. -/
theorem startTransmitPushesTheFirstChunk : Obligations.StartTransmitPushesTheFirstChunk := by
  rintro s len n k rfl rfl hk idle pos fits -
  have hpump := pump_t_ok (s.openSession .t len.toNat) (Nat.zero_le _) fits
  rw [openSession_t_fillCount, openSession_t_sT, openSession_cfg, epilogue_moved_opened] at hpump
  refine ⟨decode_startT hk len, (exec_startT_of_pump hk idle pos fits hpump).trans ?_⟩
  simp only [State.bytesAt, peek_openSession, opened_cur, Nat.zero_add]
  rfl

/-! ## START.X (R112, R113) -/

/-- LEN does not reach into the fields above it (R64). -/
theorem extractLsb'_or_low16 (v : Word) (len : BitVec 16) {k n : Nat} (hk : 16 ≤ k) :
    (v ||| len.setWidth 32).extractLsb' k n = v.extractLsb' k n := by
  ext i hi
  simp [BitVec.getLsbD_of_ge len (k + i) (by omega)]

/-- LEN of START.X, with or without an endpoint (R63, R64). -/
theorem low16_startX (ep : Option Endpoint) (len : BitVec 16) : Word.low16 (encode (.startX ep len)) = len := by
  cases ep with
  | none => simpa [encode, Word.low16] using extractLsb'_or_field len 0 0x10000000#32 (by decide) (by decide)
  | some e =>
    have hv : ∀ e : Endpoint, (0x14000000#32 ||| e.setWidth 32 <<< 20).extractLsb' 0 16 = 0 := by decide
    simpa [encode, Word.low16] using extractLsb'_or_field len 0 _ (hv e) (by decide)

/-- START.X has D = 0; S says whether E names an endpoint (R62, R63). -/
theorem decode_startX {c : Config} (hk : c.kind = .spi) {ep : Option Endpoint}
    (hep : ∀ e, ep = some e → e.toNat < c.nEp) (len : BitVec 16) :
    decode c (encode (.startX ep len)) = .ok (.startX ep len) := by
  obtain ⟨hf, hd⟩ := (startX_row_iff _).1 (Laws.RowMatch.startX ep len)
  cases ep with
  | none =>
    have hs : Word.s (encode (.startX none len)) = false := by simp [encode, Word.s]
    have he : Word.e (encode (.startX none len)) = 0 := extractLsb'_or_low16 0x10000000#32 len (by decide)
    simp [decode_start c hf, decodeStart, hk, hd, hs, he, low16_startX]
  | some e =>
    have hs : Word.s (encode (.startX (some e) len)) = true := by simp [encode, Word.s]
    have he : Word.e (encode (.startX (some e) len)) = e :=
      (extractLsb'_or_low16 _ len (by decide)).trans (extractLsb'_or_field e 20 _ (by decide) (by decide))
    simp [decode_start c hf, decodeStart, hk, hd, hs, he, low16_startX, hep e rfl]

/-- S_X opened with length `n`, the endpoint asserted where one is given and the overflow flag cleared: what START.X
pumps. -/
def State.openedX (s : State) (ep : Option Endpoint) (n : Nat) : State :=
  ((s.selectOptional ep).setOverflow false).openSession .x n

/-- START.X with its endpoint in range or absent (R112, R113). -/
theorem exec_startX {s : State} {ep : Option Endpoint} (hk : s.cfg.kind = .spi)
    (hep : ∀ e, ep = some e → e.toNat < s.cfg.nEp) (len : BitVec 16) :
    exec (.startX ep len) s = startSession .x len.toNat (startBodyX ep len.toNat) s := by
  cases ep with
  | none => simp [exec, execStartX, onKind, hk]
  | some e => simp [exec, execStartX, onKind, onEndpoint, hk, hep e rfl]

/-- An accepted START.X runs the pump of the opened session and answers OK. -/
theorem exec_startX_of_pump {s u : State} {ep : Option Endpoint} {len : BitVec 16} (hk : s.cfg.kind = .spi)
    (hep : ∀ e, ep = some e → e.toNat < s.cfg.nEp) (idle : s.sX.st = .idle) (pos : 1 ≤ len.toNat)
    (fits : len.toNat ≤ min s.cfg.nTx s.cfg.nRx) (hp : (s.openedX ep len.toNat).pump .x = .ok u) :
    exec (.startX ep len) s = .next (u.respond .ok 0) := by
  have hbody : startBodyX ep len.toNat s = .ok u := hp
  rw [exec_startX hk hep, startSession_accepted .x _ _ s idle pos fits, hbody]
  rfl

@[simp] theorem openedX_sX (s : State) (ep : Option Endpoint) (n : Nat) : (s.openedX ep n).sX = s.sX.opened n := by
  cases ep <;> rfl

@[simp] theorem openedX_cfg (s : State) (ep : Option Endpoint) (n : Nat) : (s.openedX ep n).cfg = s.cfg := by
  simp [State.openedX]

/-- START.X's pump takes what waits in RXQ, up to the session's length (R85). -/
@[simp] theorem openedX_drainCount (s : State) (ep : Option Endpoint) (n : Nat) :
    (s.openedX ep n).drainCount .x = min n s.rxq.length := by
  cases ep <;> rfl

/-- The state after START.X's pump has drained `m` bytes and pushed `k` (R85, R112). -/
theorem openedX_pumpedX (s : State) (ep : Option Endpoint) (n m k : Nat) :
    (s.openedX ep n).pumpedX m k =
      { s with
        cs := (s.selectOptional ep).cs
        rxovf := false
        sX := ((s.sX.opened n).moved m).epilogue s.cfg.fifoCap
        rxq := s.rxq.drop m
        rxBuf := Memory.store s.rxBuf 0 (s.rxq.take m)
        txq := s.txq ++ (List.range k).map fun j => s.peek .tx (m + j) } := by
  have hbytes : (s.openedX ep n).bytesAt .tx m k = (List.range k).map fun j => s.peek .tx (m + j) := by
    simp [State.bytesAt, State.openedX]
  simp only [State.pumpedX, openedX_sX, openedX_cfg, opened_cur, Nat.zero_add, hbytes]
  apply State.ext <;> simp [State.openedX, State.openSession]

/-- Settles O21: START.X's pump is `Pump(S_X)` of the opened session, whose whole effect `pump_x_ok` gives. -/
theorem startSpiPrimesTheFirstChunk : Obligations.StartSpiPrimesTheFirstChunk := by
  rintro s ep len n m k rfl rfl hkm hk hep idle pos fits hroom
  have hpump := pump_x_ok (s.openedX ep len.toNat) k (by simp) (by simpa using fits) (by simpa using hkm)
    (by simpa [State.openedX] using hroom)
  rw [openedX_drainCount, openedX_pumpedX, epilogue_moved_opened] at hpump
  refine ⟨?_, _, exec_startX_of_pump hk hep idle pos fits hpump, ?_, ?_⟩
  · have hd := decode_startX hk hep len
    cases ep <;> exact hd
  · rw [hkm]
    cases ep <;> rfl
  · simpa using peek_stored (s := s) (i := 0) (Nat.min_le_right len.toNat s.rxq.length) rfl

/-! ## ACK (R117, R118) -/

theorem decode_ackT {c : Config} (hk : c.kind = .uart) : decode c (encode .ackT) = .ok .ackT := by
  obtain ⟨hf, hd⟩ := (ackT_row_iff _).1 Laws.RowMatch.ackT
  simp [decode_ack c hf, decodeBySession, hk, hd]

theorem decode_ackR {c : Config} (hk : c.kind = .uart) : decode c (encode .ackR) = .ok .ackR := by
  obtain ⟨hf, hd⟩ := (ackR_row_iff _).1 Laws.RowMatch.ackR
  simp [decode_ack c hf, decodeBySession, hk, hd]

theorem decode_ackX {c : Config} (hk : c.kind = .spi) : decode c (encode .ackX) = .ok .ackX := by
  obtain ⟨hf, hd⟩ := (ackT_row_iff _).1 Laws.RowMatch.ackX
  simp [decode_ack c hf, decodeBySession, hk, hd]

/-- ACK.T and ACK.R are well formed on UART, ACK.X on SPI (R70). -/
theorem ackOf_wf_iff (c : Config) (id : SessionId) :
    (ackOf id).wf c = true ↔ c.kind = if id = .x then .spi else .uart := by
  cases id <;> simp [ackOf, Instr.wf, Instr.kindOk, Instr.endpointOk]

/-- A well-formed ACK acknowledges its session (R117). -/
theorem exec_ackOf {s : State} {id : SessionId} (hwf : (ackOf id).wf s.cfg = true) :
    exec (ackOf id) s = .next (s.acknowledge id) := by
  rw [ackOf_wf_iff] at hwf
  cases id with
  | t => exact if_pos hwf
  | r => exact if_pos hwf
  | x => exact if_pos hwf

theorem acknowledge_of_terminal {s : State} {id : SessionId}
    (done : (s.session id).st = .finished ∨ (s.session id).st = .timedOut) :
    s.acknowledge id = (s.setSession id (s.session id).acknowledged).respond .ok 0 :=
  if_pos done

theorem acknowledge_of_not_terminal {s : State} {id : SessionId}
    (h : ¬((s.session id).st = .finished ∨ (s.session id).st = .timedOut)) : s.acknowledge id = s.rejected :=
  if_neg h

/-- Settles O26: the two branches of `State.acknowledge`, whose states are the updates of R117. -/
theorem acknowledgeReturnsATerminalSessionToIdle : Obligations.AcknowledgeReturnsATerminalSessionToIdle := by
  have hexec : ∀ (s : State) (id : SessionId), (s.cfg.kind = if id = .x then .spi else .uart) →
      exec (ackOf id) s = .next (s.acknowledge id) := fun s id hk => exec_ackOf ((ackOf_wf_iff s.cfg id).2 hk)
  exact fun s => ⟨fun hk => ⟨decode_ackT hk, hexec s .t hk⟩, fun hk => ⟨decode_ackR hk, hexec s .r hk⟩,
    fun hk => ⟨decode_ackX hk, hexec s .x hk⟩⟩

/-- Settles O27: the first ACK leaves the session Idle, so the second is refused. -/
theorem secondAcknowledgeIsRejected : Obligations.SecondAcknowledgeIsRejected := by
  intro s id hwf done
  have hidle : ((s.acknowledge id).session id).st = .idle := by
    simp [acknowledge_of_terminal done, Session.acknowledged]
  have hsecond : (s.acknowledge id).acknowledge id = (s.acknowledge id).rejected :=
    acknowledge_of_not_terminal (by simp [hidle])
  refine ⟨_, _, exec_ackOf hwf, exec_ackOf (by rwa [acknowledge_cfg]), ?_, ?_, ?_⟩
  · rw [acknowledge_of_terminal done, respond_responses, setSession_responses]
    rfl
  · rw [hsecond]
    rfl
  · rw [hsecond, rejected_session, hidle]

/-! ## SETTMO (R119) -/

theorem decode_settmoWord {c : Config} (hk : c.kind = .uart) (nt : Bool) (tmo : BitVec 16) :
    decode c (encode (.settmo nt tmo)) = .ok (.settmo nt tmo) := by
  have hnt : Word.nt (encode (.settmo nt tmo)) = nt := by cases nt <;> simp [encode, Word.nt, bitAt]
  have htmo : Word.low16 (encode (.settmo nt tmo)) = tmo := by
    have hv : (0x60000000#32 ||| bitAt nt 16).extractLsb' 0 16 = 0 := by cases nt <;> decide
    simpa [encode, Word.low16] using extractLsb'_or_field tmo 0 _ hv (by decide)
  simp [decode_settmo c (Laws.RowMatch.settmo nt tmo), decodeSettmo, hk, hnt, htmo]

/-- Settles O28: the word is the command's encoding, and `execSettmo` has one branch on UART. -/
theorem settmoWritesTheReloadRegister : Obligations.SettmoWritesTheReloadRegister := by
  refine fun s nt tmo hk => ⟨?_, ?_⟩
  · have hd := decode_settmoWord hk nt tmo
    cases nt <;> exact hd
  · simp only [exec, execSettmo, onKind, hk, if_true]
    rfl

/-! ## SELECT and DESELECT (R120, R121) -/

theorem decode_selectWord {c : Config} (hk : c.kind = .spi) {e : Endpoint} (he : e.toNat < c.nEp) :
    decode c (encode (.select e)) = .ok (.select e) := by
  have hw : Word.e (encode (.select e)) = e := extractLsb'_or_field e 20 _ (by decide) (by decide)
  simp [decode_select c (Laws.RowMatch.select e), decodeSelect, hk, hw, he]

theorem decode_deselectWord {c : Config} (hk : c.kind = .spi) : decode c (encode .deselect) = .ok .deselect := by
  simp [decode_deselect c Laws.RowMatch.deselect, decodeDeselect, hk]

/-- Settles O29: on SPI, with the endpoint in range, SELECT is `State.driveSelect` with its two branches. -/
theorem selectDrivesTheEndpoint : Obligations.SelectDrivesTheEndpoint := by
  refine fun s e hk he => ⟨decode_selectWord hk he, ?_⟩
  simp only [exec, execSelect, onKind, onEndpoint, hk, he, if_true]
  rfl

/-- Settles O30: on SPI, DESELECT is `State.driveSelect` with its two branches. -/
theorem deselectReleasesTheEndpoint : Obligations.DeselectReleasesTheEndpoint := by
  refine fun s hk => ⟨decode_deselectWord hk, ?_⟩
  simp only [exec, execDeselect, onKind, hk, if_true]
  rfl

/-! ## `cs` during an SPI session (R122) -/

theorem pump_cs (s t : State) (id : SessionId) (h : s.pump id = .ok t) : t.cs = s.cs := by
  cases id with
  | t => simp [pump_t_cases s t h]
  | r => simp [pump_r_cases s t h]
  | x => simp [pump_x_cases s t h, State.pumpedX]

theorem arrive_cs_wire {s t : State} {b : Byte} (h : s.arrive b = .ok t) : t.cs = s.cs ∧ t.wire = s.wire := by
  rw [arrive_eq] at h
  obtain rfl := Except.ok.inj h
  split <;> exact ⟨rfl, rfl⟩

theorem startSession_cs {k : SessionId} {s t p : State} {n : Nat} {body : State → Except Fault State}
    (hbody : body s = p.pump k) (hp : p.cs = s.cs) (h : startSession k n body s = .next t) : t.cs = s.cs := by
  rcases startSession_cases k n body s t h with rfl | ⟨-, -, -, u, hu, rfl⟩
  · rfl
  · exact (pump_cs p u k (hbody ▸ hu)).trans hp

/-- START.X is turned away while S_X is InProgress (R109). -/
theorem startX_cs_of_busy {s t : State} {n : Nat} {body : State → Except Fault State} (busy : s.sX.st = .inProgress)
    (h : startSession .x n body s = .next t) : t.cs = s.cs := by
  have hrej := startSession_rejected .x n body s (.inl (by simp [busy]))
  exact Host.Outcome.next.inj (hrej.symm.trans h) ▸ rfl

@[simp] theorem acknowledge_cs (s : State) (id : SessionId) : (s.acknowledge id).cs = s.cs := by
  unfold State.acknowledge
  split
  · simp
  · rfl

@[simp] theorem livenessCheck_cs (s : State) : s.livenessCheck.cs = s.cs := by
  rcases livenessCheck_cases s with h | ⟨h, -⟩ | ⟨h, -⟩ <;> simp [h]

/-- SELECT and DESELECT are turned away while S_X is InProgress (R120, R121). -/
theorem driveSelect_cs_of_busy {s : State} (busy : s.sX.st = .inProgress) (cs : Option Endpoint) :
    (s.driveSelect cs).cs = s.cs := by
  simp [State.driveSelect, busy, State.rejected]

theorem writeBuffer_cs {B : Buf} {k : Nat} {v : Byte} {s t : State} (h : writeBuffer B k v s = .next t) :
    t.cs = s.cs := by
  rcases writeBuffer_cases B k v s t h with rfl | ⟨-, -, rfl⟩
  · rfl
  · simp

theorem readBuffer_cs {B : Buf} {k : Nat} {s t : State} (h : readBuffer B k s = .next t) : t.cs = s.cs := by
  rcases readBuffer_cases B k s t h with rfl | ⟨-, -, rfl⟩ <;> rfl

/-- No command changes `cs` while S_X is InProgress: SELECT, DESELECT and START.X, which write it, are turned away. -/
theorem exec_cs_of_busy (i : Instr) (s t : State) (busy : s.sX.st = .inProgress) (h : exec i s = .next t) :
    t.cs = s.cs := by
  have ill : s.illegal.cs = s.cs := rfl
  revert t
  cases i with
  | startT len => exact of_onKind ill fun _ t h => startSession_cs (p := s.openSession .t _) rfl (by simp) h
  | startR len => exact of_onKind ill fun _ t h => startSession_cs (p := s.openedR _) rfl rfl h
  | startX ep len =>
    refine of_onKind ill fun _ => ?_
    cases ep with
    | none => exact fun t h => startX_cs_of_busy busy h
    | some e => exact of_onEndpoint ill fun t h => startX_cs_of_busy busy h
  | statusT => exact of_onKind_next ill rfl
  | statusR => exact of_onKind_next ill (by split <;> simp [State.reportStatus])
  | statusX => exact of_onKind_next ill rfl
  | ackT => exact of_onKind_next ill (acknowledge_cs s .t)
  | ackR => exact of_onKind_next ill (acknowledge_cs s .r)
  | ackX => exact of_onKind_next ill (acknowledge_cs s .x)
  | select e => exact of_onKind ill fun _ => of_onEndpoint ill fun t h =>
      Host.Outcome.next.inj h ▸ driveSelect_cs_of_busy busy _
  | deselect => exact of_onKind_next ill (driveSelect_cs_of_busy busy none)
  | settmo nt tmo => exact of_onKind_next ill rfl
  | bufwrT idx data => exact fun t h => writeBuffer_cs h
  | bufwrR idx data => exact fun t h => writeBuffer_cs h
  | bufrdT idx => exact fun t h => readBuffer_cs h
  | bufrdR idx => exact fun t h => readBuffer_cs h

/-- `cs` stays, and the bytes that left, if any, left under it (R122). -/
structure HoldsSelect (s t : State) : Prop where
  cs : t.cs = s.cs
  sent : ∃ l : List Byte, t.wire = s.wire ++ l.map (WireEntry.spi s.cs)

theorem HoldsSelect.of_kept {s t : State} (cs : t.cs = s.cs) (wire : t.wire = s.wire) : HoldsSelect s t :=
  ⟨cs, [], by simp [wire]⟩

/-- No event changes `cs`; on SPI, XCHG alone sends a byte (R122, R152). -/
theorem execEvent_holdsSelect (e : Event) (s t : State) (hk : s.cfg.kind = .spi) (h : execEvent e s = .next t) :
    HoldsSelect s t := by
  rcases execEvent_cases e s t h with ⟨he, h⟩ | ⟨-, rfl⟩
  · cases e with
    | irqT => simp [State.enabled, hk] at he
    | irqR => simp [State.enabled, hk] at he
    | irqX => exact .of_kept (pump_cs s t .x h) (pump_onlyQueues s t .x h).wire
    | tick =>
      rw [← Except.ok.inj h, tick_of_no_budget (.inl hk)]
      exact .of_kept rfl rfl
    | txLoad => simp [State.enabled, hk] at he
    | txEmit => simp [State.enabled, hk] at he
    | rxByte b => simp [State.enabled, hk] at he
    | xchg r =>
      obtain ⟨b, l, -, harr⟩ := xchg_cases s t r h
      obtain ⟨hcs, hwire⟩ := arrive_cs_wire harr
      exact ⟨hcs, [b], hwire⟩
  · exact .of_kept rfl rfl

/-- Settles O50: `cs` names one endpoint at most, and what can write it is turned away while S_X is InProgress. -/
theorem chipSelectIsHeldDuringATransfer : Obligations.ChipSelectIsHeldDuringATransfer := by
  refine ⟨fun s e e' he he' => ?_, fun s t _ hk busy hstep => ?_⟩
  · have he : s.cs = some e := by simpa [State.chipSelect] using he
    have he' : s.cs = some e' := by simpa [State.chipSelect] using he'
    exact Option.some.inj (he.symm.trans he')
  · obtain ⟨l, n, hframe⟩ := takeAgentStep_frame s
    have hcs : s.takeAgentStep.2.cs = s.cs := by rw [hframe]
    have hwire : s.takeAgentStep.2.wire = s.wire := (takeAgentStep_sameBytes s).wire
    have held : HoldsSelect s.takeAgentStep.2 t := by
      rcases step_cases s t hstep with ⟨w, i, -, -, hi⟩ | ⟨w, c, -, -, rfl⟩ | ⟨e, -, he⟩
      · exact .of_kept (exec_cs_of_busy i _ t (by rw [hframe]; exact busy) hi) (exec_moves i _ t hi).onlyQueues.wire
      · exact .of_kept rfl rfl
      · exact execEvent_holdsSelect e _ t (by simpa using hk) he
    rw [← hcs, ← hwire]
    exact ⟨held.cs, held.sent⟩

end Sys2Proof.Machine

/-! SUPPORT. BUFWR (spec/43_buffer_port.md R136, R138, R139): its words decode to it, a write that is turned away changes
nothing, and one that is accepted stores one byte. -/

namespace Sys2Proof.Machine

/-! ## The words of BUFWR (R66) -/

/-- A field does not reach into the places above its own width. -/
theorem extractLsb'_or_low {m n : Nat} (v : Word) (x : BitVec m) {k : Nat} (hk : m ≤ k) :
    (v ||| x.setWidth 32).extractLsb' k n = v.extractLsb' k n := by
  ext i hi
  simp [BitVec.getLsbD_of_ge x (k + i) (by omega)]

/-- A shifted field leaves the places below it as they were. -/
theorem extractLsb'_or_shifted {m n : Nat} (v : Word) (x : BitVec m) {k : Nat} (hn : n ≤ k) :
    (v ||| x.setWidth 32 <<< k).extractLsb' 0 n = v.extractLsb' 0 n := by
  ext i hi
  simp [show i < k by omega]

/-- IDX of a BUFWR word is its index. -/
theorem idx_bufwrWord {v : Word} (hv : v.extractLsb' 8 16 = 0) (idx : BitVec 16) (b : Byte) :
    Word.idx (v ||| (idx.setWidth 32 <<< 8) ||| b.setWidth 32) = idx :=
  (extractLsb'_or_low _ b (by decide)).trans (extractLsb'_or_field idx 8 v hv (by decide))

/-- DATA of a BUFWR word is its byte. -/
theorem data_bufwrWord {v : Word} (hv : v.extractLsb' 0 8 = 0) (idx : BitVec 16) (b : Byte) :
    Word.data (v ||| (idx.setWidth 32 <<< 8) ||| b.setWidth 32) = b := by
  have hlow : (v ||| (idx.setWidth 32 <<< 8)).extractLsb' 0 8 = 0 :=
    (extractLsb'_or_shifted v idx (by decide)).trans hv
  simpa [Word.data] using extractLsb'_or_field b 0 _ hlow (by decide)

theorem decode_bufwrT (c : Config) (idx : BitVec 16) (b : Byte) :
    decode c (0x70000000#32 ||| (idx.setWidth 32 <<< 8) ||| b.setWidth 32) = .ok (.bufwrT idx b) := by
  obtain ⟨hf, hd⟩ := (bufwrT_row_iff _).1 (Laws.RowMatch.bufwrT idx b)
  rw [encode] at hf hd
  simp [decode_bufwr c hf, hd, idx_bufwrWord, data_bufwrWord]

theorem decode_bufwrR (c : Config) (idx : BitVec 16) (b : Byte) :
    decode c (0x78000000#32 ||| (idx.setWidth 32 <<< 8) ||| b.setWidth 32) = .ok (.bufwrR idx b) := by
  obtain ⟨hf, hd⟩ := (bufwrR_row_iff _).1 (Laws.RowMatch.bufwrR idx b)
  rw [encode] at hf hd
  simp [decode_bufwr c hf, hd, idx_bufwrWord, data_bufwrWord]

/-! ## The two cases of `writeBuffer` (R136, R138, R139) -/

theorem writeBuffer_rejected {B : Buf} {i : Nat} {v : Byte} {s : State}
    (h : (s.session (s.owner B)).st = .inProgress ∨ s.bufSize B ≤ i) : writeBuffer B i v s = .next s.rejected := by
  have hm : ¬ s.hostMayAccess B i = true := fun hm =>
    have ⟨free, inside⟩ := (hostMayAccess_iff s B i).1 hm
    h.elim free (Nat.not_le_of_lt inside)
  simp [writeBuffer, hm]

theorem writeBuffer_accepted {B : Buf} {i : Nat} {v : Byte} {s : State}
    (free : (s.session (s.owner B)).st ≠ .inProgress) (inside : i < s.bufSize B) :
    writeBuffer B i v s = .next ((s.poke B i v).respond .ok 0) := by
  have hm : s.hostMayAccess B i = true := (hostMayAccess_iff s B i).2 ⟨free, inside⟩
  simp [writeBuffer, hm, State.memWrite, inside, answerOk]

/-- An accepted write stores the byte at its index, and no other byte of the buffer changes. -/
theorem peek_after_write (s : State) (B : Buf) (i : Nat) (v : Byte) :
    ((s.poke B i v).respond .ok 0).peek B i = v ∧
      ∀ k, k ≠ i → ((s.poke B i v).respond .ok 0).peek B k = s.peek B k :=
  ⟨by simp [peek_poke], fun k hk => by simp [peek_poke, hk]⟩

/-- Settles O31: the words decode by BUFWR's rows, and for each buffer the clauses are the two cases of `writeBuffer`. -/
theorem bufferWriteStoresOneByte : Obligations.BufferWriteStoresOneByte := by
  intro s idx v
  simp only [busyTx_iff, busyRx_iff]
  refine ⟨decode_bufwrT s.cfg idx v, decode_bufwrR s.cfg idx v, writeBuffer_rejected (B := .tx),
    writeBuffer_rejected (B := .rx), fun free inside => ?_, fun free inside => ?_⟩
  · exact ⟨_, writeBuffer_accepted (B := .tx) free inside, rfl, peek_after_write s .tx idx.toNat v⟩
  · exact ⟨_, writeBuffer_accepted (B := .rx) free inside, rfl, peek_after_write s .rx idx.toNat v⟩

end Sys2Proof.Machine

/-! SUPPORT. The UART events of spec/44_collaborators.md: TX_LOAD and TX_EMIT (R148, R149) and RX_BYTE (R150). -/

namespace Sys2Proof.Machine

/-- An enabled event that completes gives the state it fires to (R146). -/
theorem execEvent_of_fire {e : Event} {s t : State} (he : s.enabled e = true) (h : s.fire e = .ok t) :
    execEvent e s = .next t :=
  (if_pos he).trans ((eventOutcome_eq_next _ t).2 h)

/-! ## TX_LOAD and TX_EMIT (R148, R149) -/

theorem enabled_txLoad_iff {s : State} (hk : s.cfg.kind = .uart) :
    s.enabled .txLoad = true ↔ s.txsh = none ∧ s.txq ≠ [] := by
  simp [State.enabled, hk, List.length_pos_iff]

theorem enabled_txEmit_iff {s : State} (hk : s.cfg.kind = .uart) : s.enabled .txEmit = true ↔ s.txsh ≠ none := by
  simp [State.enabled, hk, Option.isSome_iff_ne_none]

theorem txLoad_ok {s : State} {b : Byte} {l : List Byte} (hq : s.txq = b :: l) :
    s.txLoad = .ok ((s.setFifo .tx l).setShift (some b)) := by
  have hpop : s.fifoPop .tx = .ok (b, s.setFifo .tx l) := (fifoPop_eq_ok s _ .tx b).2 ⟨l, hq, rfl⟩
  simp [State.txLoad, hpop]

theorem txEmit_of_full {s : State} {b : Byte} (hsh : s.txsh = some b) :
    s.txEmit = (s.emit (.uart b)).setShift none := by
  simp [State.txEmit, hsh]

/-- Settles O34: where they are enabled, TX_LOAD fires to `txLoad_ok` and TX_EMIT to `txEmit_of_full`. -/
theorem transmitterShiftsInOrder : Obligations.TransmitterShiftsInOrder := by
  intro s b l hk
  refine ⟨enabled_txLoad_iff hk, enabled_txEmit_iff hk, fun hsh hq => ?_, fun hsh => ?_⟩
  · have he : s.enabled .txLoad = true := (enabled_txLoad_iff hk).2 ⟨hsh, by simp [hq]⟩
    exact execEvent_of_fire he (txLoad_ok hq)
  · have he : s.enabled .txEmit = true := (enabled_txEmit_iff hk).2 (by simp [hsh])
    exact execEvent_of_fire he (congrArg Except.ok (txEmit_of_full hsh))

/-! ## RX_BYTE (R150) -/

theorem enabled_rxByte {s : State} (hk : s.cfg.kind = .uart) (b : Byte) : s.enabled (.rxByte b) = true := by
  simp [State.enabled, hk]

theorem arrive_of_room {s : State} (room : s.rxq.length < s.cfg.fifoCap) (b : Byte) :
    s.arrive b = .ok (s.setFifo .rx (s.rxq ++ [b])) :=
  (arrive_eq s b).trans (congrArg Except.ok (if_pos room))

theorem arrive_of_full {s : State} (full : s.cfg.fifoCap ≤ s.rxq.length) (b : Byte) :
    s.arrive b = .ok (s.setOverflow true) :=
  (arrive_eq s b).trans (congrArg Except.ok (if_neg (Nat.not_lt.2 full)))

/-- Settles O35: RX_BYTE is enabled on UART whatever S_R does, and fires to one of the two cases of `arrive_eq`. -/
theorem arrivingByteIsQueuedOrLost : Obligations.ArrivingByteIsQueuedOrLost := by
  intro s b hk
  have he := enabled_rxByte hk b
  exact ⟨he, fun room => execEvent_of_fire he (arrive_of_room room b),
    fun full => execEvent_of_fire he (arrive_of_full full b)⟩

end Sys2Proof.Machine

/-! SUPPORT. The words and the commands (spec/30_encoding.md sections 2 to 4, 6 and 7): every command is read back from its
word, a word that decodes is its command's only word, the ILLEGAL causes in R72's order, and the assembler's table. -/

namespace Sys2Proof.Machine

/-! ## Decoding an encoded command -/

/-- STATUS.T and STATUS.X have one word, which the `KIND` reads (R59, R70). -/
theorem decode_statusT {c : Config} (hk : c.kind = .uart) : decode c (encode .statusT) = .ok .statusT := by
  have h := decode_statusWord c
  rwa [hk] at h

theorem decode_statusX {c : Config} (hk : c.kind = .spi) : decode c (encode .statusX) = .ok .statusX := by
  have h := decode_statusWord c
  rwa [hk] at h

theorem wf_iff (c : Config) (i : Instr) : i.wf c = true ↔ i.kindOk c.kind = true ∧ i.endpointOk c = true := by
  simp [Instr.wf]

/-- START.X is well formed on SPI with its endpoint in range or absent (R70, R71). -/
theorem wf_startX_iff (c : Config) (ep : Option Endpoint) (len : BitVec 16) :
    (Instr.startX ep len).wf c = true ↔ c.kind = .spi ∧ ∀ e, ep = some e → e.toNat < c.nEp := by
  cases ep <;> simp [wf_iff, Instr.kindOk, Instr.endpointOk]

/-- A well-formed command is read back from its word, one case per row. -/
theorem decode_encode {c : Config} {i : Instr} (h : i.wf c = true) : decode c (encode i) = .ok i := by
  obtain ⟨hk, he⟩ := (wf_iff c i).1 h
  cases i with
  | startX ep len =>
    obtain ⟨hk, hep⟩ := (wf_startX_iff c ep len).1 h
    exact decode_startX hk hep len
  | select e => exact decode_selectWord (of_decide_eq_true hk) (of_decide_eq_true he)
  | startT len => exact decode_startT (of_decide_eq_true hk) len
  | startR len => exact decode_startR (of_decide_eq_true hk) len
  | statusT => exact decode_statusT (of_decide_eq_true hk)
  | statusR => exact decode_statusR (of_decide_eq_true hk)
  | statusX => exact decode_statusX (of_decide_eq_true hk)
  | ackT => exact decode_ackT (of_decide_eq_true hk)
  | ackR => exact decode_ackR (of_decide_eq_true hk)
  | ackX => exact decode_ackX (of_decide_eq_true hk)
  | deselect => exact decode_deselectWord (of_decide_eq_true hk)
  | settmo nt tmo => exact decode_settmoWord (of_decide_eq_true hk) nt tmo
  | bufwrT idx data => exact decode_bufwrT c idx data
  | bufwrR idx data => exact decode_bufwrR c idx data
  | bufrdT idx => exact decode_bufrdT c idx
  | bufrdR idx => exact decode_bufrdR c idx

/-- Settles O6: `decode_encode` is the statement. -/
theorem decodeOfEncodeIsTheCommand : Obligations.DecodeOfEncodeIsTheCommand :=
  fun _ _ h => decode_encode h

/-- Settles O5: each word is its command's, and the command is well formed there. -/
theorem sampleWordsDecode : Obligations.SampleWordsDecode :=
  ⟨decode_encode (i := .startT 40) rfl, decode_encode (i := .startX (some 2) 3) rfl, decode_encode (i := .ackR) rfl,
    decode_encode (i := .settmo true 0) rfl, decode_encode (i := .bufrdR 2) rfl⟩

/-! ## A word that decodes is its command's only word -/

/-- The word is of the command's row and its operand fields hold the command's operands (R63 to R66). -/
structure IsWordOf (w : Word) (i : Instr) : Prop where
  row : w &&& Laws.RowMatch.rowMask i = Laws.RowMatch.rowMatch i
  operands : match i with
    | .startT len => w.low16 = len
    | .startR len => w.low16 = len
    | .startX none len => w.s = false ∧ w.e = 0 ∧ w.low16 = len
    | .startX (some e) len => w.s = true ∧ w.e = e ∧ w.low16 = len
    | .select e => w.e = e
    | .settmo nt tmo => w.nt = nt ∧ w.low16 = tmo
    | .bufwrT idx data => w.idx = idx ∧ w.data = data
    | .bufwrR idx data => w.idx = idx ∧ w.data = data
    | .bufrdT idx => w.idx = idx
    | .bufrdR idx => w.idx = idx
    | _ => True

/-- A word that decodes is a word of its command, which is well formed: one case per format, and in it one per command. -/
theorem isWordOf_of_decode {c : Config} {w : Word} {i : Instr} (h : decode c w = .ok i) :
    IsWordOf w i ∧ i.wf c = true := by
  obtain ⟨f, hf, -, hm⟩ := format_of_decode h
  rw [wf_iff]
  simp only [formatTable, List.mem_cons, List.not_mem_nil, or_false] at hf
  rcases hf with rfl | rfl | rfl | rfl | rfl | rfl | rfl | rfl
  · -- START
    rw [decode_start c hm, decodeStart_eq_ok_iff] at h
    rcases h with ⟨hk, hs, he, rfl⟩ | ⟨hk, hd, hs, he, rfl⟩ | ⟨hk, hd, hs, he, rfl⟩
    · cases hd : w.d with
      | false => exact ⟨⟨(startT_row_iff w).2 ⟨hm, hd, hs, he⟩, rfl⟩, by simp [Instr.kindOk, hk], rfl⟩
      | true => exact ⟨⟨(startR_row_iff w).2 ⟨hm, hd, hs, he⟩, rfl⟩, by simp [Instr.kindOk, hk], rfl⟩
    · exact ⟨⟨(startX_row_iff w).2 ⟨hm, hd⟩, hs, rfl, rfl⟩, by simp [Instr.kindOk, hk], by simpa [Instr.endpointOk]⟩
    · exact ⟨⟨(startX_row_iff w).2 ⟨hm, hd⟩, hs, he, rfl⟩, by simp [Instr.kindOk, hk], rfl⟩
  · -- STATUS
    rw [decode_status c hm, decodeBySession_eq_ok_iff] at h
    rcases h with ⟨hk, rfl⟩ | ⟨hk, hd, rfl⟩
    · cases hd : w.d with
      | false => exact ⟨⟨(statusT_row_iff w).2 ⟨hm, hd⟩, trivial⟩, by simp [Instr.kindOk, hk], rfl⟩
      | true => exact ⟨⟨(statusR_row_iff w).2 ⟨hm, hd⟩, trivial⟩, by simp [Instr.kindOk, hk], rfl⟩
    · exact ⟨⟨(statusT_row_iff w).2 ⟨hm, hd⟩, trivial⟩, by simp [Instr.kindOk, hk], rfl⟩
  · -- ACK
    rw [decode_ack c hm, decodeBySession_eq_ok_iff] at h
    rcases h with ⟨hk, rfl⟩ | ⟨hk, hd, rfl⟩
    · cases hd : w.d with
      | false => exact ⟨⟨(ackT_row_iff w).2 ⟨hm, hd⟩, trivial⟩, by simp [Instr.kindOk, hk], rfl⟩
      | true => exact ⟨⟨(ackR_row_iff w).2 ⟨hm, hd⟩, trivial⟩, by simp [Instr.kindOk, hk], rfl⟩
    · exact ⟨⟨(ackT_row_iff w).2 ⟨hm, hd⟩, trivial⟩, by simp [Instr.kindOk, hk], rfl⟩
  · -- SELECT
    rw [decode_select c hm, decodeSelect_eq_ok_iff] at h
    obtain ⟨hk, he, rfl⟩ := h
    exact ⟨⟨hm, rfl⟩, by simp [Instr.kindOk, hk], by simpa [Instr.endpointOk]⟩
  · -- DESELECT
    rw [decode_deselect c hm, decodeDeselect_eq_ok_iff] at h
    obtain ⟨hk, rfl⟩ := h
    exact ⟨⟨hm, trivial⟩, by simp [Instr.kindOk, hk], rfl⟩
  · -- SETTMO
    rw [decode_settmo c hm, decodeSettmo_eq_ok_iff] at h
    obtain ⟨hk, rfl⟩ := h
    exact ⟨⟨hm, rfl, rfl⟩, by simp [Instr.kindOk, hk], rfl⟩
  · -- BUFWR
    obtain rfl := Except.ok.inj ((decode_bufwr c hm).symm.trans h)
    cases hd : w.d with
    | false => exact ⟨⟨(bufwrT_row_iff w).2 ⟨hm, hd⟩, rfl, rfl⟩, rfl, rfl⟩
    | true => exact ⟨⟨(bufwrR_row_iff w).2 ⟨hm, hd⟩, rfl, rfl⟩, rfl, rfl⟩
  · -- BUFRD
    obtain rfl := Except.ok.inj ((decode_bufrd c hm).symm.trans h)
    cases hd : w.d with
    | false => exact ⟨⟨(bufrdT_row_iff w).2 ⟨hm, hd⟩, rfl⟩, rfl, rfl⟩
    | true => exact ⟨⟨(bufrdR_row_iff w).2 ⟨hm, hd⟩, rfl⟩, rfl, rfl⟩

/-- Words that agree under a mask and in the fields it leaves out are equal. -/
theorem eq_of_mask_and_fields (m : Word) (fs : List (Nat × Nat)) (hall : m ||| fieldsMask fs = BitVec.allOnes 32)
    {w v : Word} (hm : w &&& m = v &&& m) (hf : ∀ f ∈ fs, w.extractLsb' f.1 f.2 = v.extractLsb' f.1 f.2) : w = v := by
  have h := (and_or_eq_and_or_iff w v m _).2 ⟨hm, (and_fieldsMask_eq_iff w v fs).2 hf⟩
  rwa [hall, BitVec.and_allOnes, BitVec.and_allOnes] at h

/-- A one-bit field is its bit. -/
theorem extractLsb'_one_congr {w v : Word} {k : Nat} (h : w.getLsbD k = v.getLsbD k) :
    w.extractLsb' k 1 = v.extractLsb' k 1 := by
  rw [extractLsb'_one, extractLsb'_one, h]

/-- Words whose LEN fields and other bits agree. -/
theorem eq_of_low16 {w v : Word} (hm : w &&& 0xFFFF0000#32 = v &&& 0xFFFF0000#32) (hl : w.low16 = v.low16) : w = v :=
  eq_of_mask_and_fields _ [(0, 16)] (by decide) hm (List.forall_mem_singleton.2 hl)

/-- Words whose IDX and DATA fields and other bits agree. -/
theorem eq_of_idx_data {w v : Word} (hm : w &&& 0xFF000000#32 = v &&& 0xFF000000#32) (hi : w.idx = v.idx)
    (hd : w.data = v.data) : w = v :=
  eq_of_mask_and_fields _ [(8, 16), (0, 8)] (by decide) hm
    (List.forall_mem_cons.2 ⟨hi, List.forall_mem_singleton.2 hd⟩)

/-- Words whose IDX fields and other bits agree. -/
theorem eq_of_idx {w v : Word} (hm : w &&& 0xFF0000FF#32 = v &&& 0xFF0000FF#32) (hi : w.idx = v.idx) : w = v :=
  eq_of_mask_and_fields _ [(8, 16)] (by decide) hm (List.forall_mem_singleton.2 hi)

/-- Words with no operand field, all of whose bits agree. -/
theorem eq_of_all {w v : Word} (hm : w &&& 0xFFFFFFFF#32 = v &&& 0xFFFFFFFF#32) : w = v :=
  eq_of_mask_and_fields _ [] (by decide) hm nofun

/-- A command has one word: its row's fixed bits and its operand fields are all 32 bits. -/
theorem IsWordOf.unique {w v : Word} {i : Instr} (hw : IsWordOf w i) (hv : IsWordOf v i) : w = v := by
  have hm := hw.row.trans hv.row.symm
  have ho := hw.operands
  have ho' := hv.operands
  cases i with
  | startT len => exact eq_of_low16 hm (ho.trans ho'.symm)
  | startR len => exact eq_of_low16 hm (ho.trans ho'.symm)
  | startX ep len =>
    have hfields : w.s = v.s ∧ w.e = v.e ∧ w.low16 = v.low16 := by
      cases ep <;> exact ⟨ho.1.trans ho'.1.symm, ho.2.1.trans ho'.2.1.symm, ho.2.2.trans ho'.2.2.symm⟩
    obtain ⟨hs, he, hl⟩ := hfields
    exact eq_of_mask_and_fields 0xFB0F0000#32 [(26, 1), (20, 4), (0, 16)] (by decide) hm
      (List.forall_mem_cons.2 ⟨extractLsb'_one_congr hs, List.forall_mem_cons.2 ⟨he, List.forall_mem_singleton.2 hl⟩⟩)
  | select e =>
    exact eq_of_mask_and_fields 0xFF0FFFFF#32 [(20, 4)] (by decide) hm (List.forall_mem_singleton.2 (ho.trans ho'.symm))
  | settmo nt tmo =>
    obtain ⟨hnt, hl⟩ := ho
    obtain ⟨hnt', hl'⟩ := ho'
    exact eq_of_mask_and_fields 0xFFFE0000#32 [(16, 1), (0, 16)] (by decide) hm
      (List.forall_mem_cons.2 ⟨extractLsb'_one_congr (hnt.trans hnt'.symm), List.forall_mem_singleton.2 (hl.trans hl'.symm)⟩)
  | bufwrT idx data => exact eq_of_idx_data hm (ho.1.trans ho'.1.symm) (ho.2.trans ho'.2.symm)
  | bufwrR idx data => exact eq_of_idx_data hm (ho.1.trans ho'.1.symm) (ho.2.trans ho'.2.symm)
  | bufrdT idx => exact eq_of_idx hm (ho.trans ho'.symm)
  | bufrdR idx => exact eq_of_idx hm (ho.trans ho'.symm)
  | statusT => exact eq_of_all hm
  | statusR => exact eq_of_all hm
  | statusX => exact eq_of_all hm
  | ackT => exact eq_of_all hm
  | ackR => exact eq_of_all hm
  | ackX => exact eq_of_all hm
  | deselect => exact eq_of_all hm

/-- Settles O7: the command's own word decodes to it too, and a command has one word. -/
theorem encodeOfDecodeIsTheWord : Obligations.EncodeOfDecodeIsTheWord := by
  intro c w i h
  obtain ⟨hw, hwf⟩ := isWordOf_of_decode h
  exact ⟨(isWordOf_of_decode (decode_encode hwf)).1.unique hw, hwf⟩

/-! ## The ILLEGAL causes in their order (R72) -/

theorem decode_of_reservedOpcode (c : Config) {w : Word} (h : ReservedOpcode w) :
    decode c w = .error .reservedOpcode := by
  have hop : w.op = 0 ∨ 9 ≤ w.op.toNat := h
  have hnone : ∀ k : BitVec 4, (k = 0 ∨ 9 ≤ k.toNat) → reservedFields k.toNat = [] := by decide
  have hr : w.reservedBitSet = false := by simp [reservedBitSet_eq_false_iff, hnone w.op hop]
  simp [decode, hr, decodeOp_of_reservedOpcode c h]

theorem decode_of_reservedBit (c : Config) {w : Word} (h : ReservedBit w) : decode c w = .error .reservedBit := by
  obtain ⟨f, hf, hop, hm⟩ := h
  have hr : w.reservedBitSet = true := by
    by_contra hr
    exact hm ((fitsFormat_iff hf w).2 ⟨hop, by simpa using hr⟩)
  simp [decode, hr]

/-- A word whose OP and reserved bits pass fits a format. -/
theorem format_of_not_reserved {w : Word} (hop : ¬ ReservedOpcode w) (hbit : ¬ ReservedBit w) :
    ∃ f ∈ formatTable, w.op = f.1 ∧ w &&& f.2.1 = f.2.2 := by
  obtain ⟨f, hf, hf'⟩ := format_of_not_reservedOpcode hop
  exact ⟨f, hf, hf', by_contra fun hm => hbit ⟨f, hf, hf', hm⟩⟩

/-- What the checks of R70 and R71 say of a word that passed those of OP and of the reserved bits. -/
structure ChecksInOrder (c : Config) (w : Word) : Prop where
  kind : KindIllegal c.kind w → decode c w = .error .wrongKind
  endpoint : ¬ KindIllegal c.kind w → EndpointIllegal c w → decode c w = .error .endpointRange
  passed : ¬ KindIllegal c.kind w → ¬ EndpointIllegal c w → ∃ i, decode c w = .ok i

/-- A word that decodes passes every check. -/
theorem checksInOrder_of_decode {c : Config} {w : Word} {i : Instr} (h : decode c w = .ok i) : ChecksInOrder c w :=
  ⟨fun hk => absurd hk (not_kindIllegal_of_decode h).1, fun _ he => absurd he (not_kindIllegal_of_decode h).2,
    fun _ _ => ⟨i, h⟩⟩

/-- A word of the wrong `KIND` fails at R70. -/
theorem checksInOrder_of_wrongKind {c : Config} {w : Word} (hk : KindIllegal c.kind w)
    (h : decode c w = .error .wrongKind) : ChecksInOrder c w :=
  ⟨fun _ => h, fun hn => absurd hk hn, fun hn => absurd hk hn⟩

/-- A word of the right `KIND` whose endpoint is out of range fails at R71. -/
theorem checksInOrder_of_endpointRange {c : Config} {w : Word} (hk : ¬ KindIllegal c.kind w) (he : EndpointIllegal c w)
    (h : decode c w = .error .endpointRange) : ChecksInOrder c w :=
  ⟨fun hn => absurd hn hk, fun _ _ => h, fun _ hn => absurd he hn⟩

/-- START: the branches of `decodeStart`. -/
theorem checksInOrder_start {c : Config} {w : Word} (hop : w.op = 1) (hm : w &&& 0xF30F0000#32 = 0x10000000#32) :
    ChecksInOrder c w := by
  have hdec := decode_start c hm
  cases hk : c.kind with
  | uart =>
    by_cases hse : w.s = true ∨ w.e ≠ 0
    · refine checksInOrder_of_wrongKind ?_ (hdec.trans (by simp only [decodeStart, hk, if_pos hse]))
      rw [hk, kindIllegal_uart_iff]
      exact .inr (.inr ⟨hop, hse⟩)
    · obtain ⟨hs, he⟩ := not_or.1 hse
      exact checksInOrder_of_decode
        (hdec.trans ((decodeStart_eq_ok_iff c w _).2 (.inl ⟨hk, by simpa using hs, not_not.1 he, rfl⟩)))
  | spi =>
    cases hd : w.d with
    | true =>
      refine checksInOrder_of_wrongKind ?_ (by simp [hdec, decodeStart, hk, hd])
      rw [hk, kindIllegal_spi_iff]
      exact .inl ⟨.inl hop, hd⟩
    | false =>
      cases hs : w.s with
      | true =>
        by_cases he : w.e.toNat < c.nEp
        · exact checksInOrder_of_decode (i := .startX (some w.e) w.low16) (by simp [hdec, decodeStart, hk, hd, hs, he])
        · refine checksInOrder_of_endpointRange ?_ ?_ (by simp [hdec, decodeStart, hk, hd, hs, he])
          · simp [hk, kindIllegal_spi_iff, hd, hs, hop]
          · exact (endpointIllegal_iff c w).2 ⟨hk, .inr ⟨hop, hs⟩, Nat.le_of_not_lt he⟩
      | false =>
        by_cases he : w.e = 0
        · exact checksInOrder_of_decode (i := .startX none w.low16) (by simp [hdec, decodeStart, hk, hd, hs, he])
        · refine checksInOrder_of_wrongKind ?_ (hdec.trans (by simp only [decodeStart, hk, hd, hs]; exact if_pos he))
          rw [hk, kindIllegal_spi_iff]
          exact .inr (.inr ⟨hop, hs, he⟩)

/-- STATUS and ACK: the branches of `decodeBySession`. -/
theorem checksInOrder_bySession {c : Config} {w : Word} {t r x : Instr} (hop : w.op = 2 ∨ w.op = 3)
    (hdec : decode c w = decodeBySession c w t r x) : ChecksInOrder c w := by
  cases hk : c.kind with
  | uart => exact checksInOrder_of_decode (hdec.trans ((decodeBySession_eq_ok_iff c w t r x _).2 (.inl ⟨hk, rfl⟩)))
  | spi =>
    cases hd : w.d with
    | true =>
      refine checksInOrder_of_wrongKind ?_ (by simp [hdec, decodeBySession, hk, hd])
      rw [hk, kindIllegal_spi_iff]
      exact .inl ⟨.inr hop, hd⟩
    | false => exact checksInOrder_of_decode (i := x) (by simp [hdec, decodeBySession, hk, hd])

/-- SELECT: the branches of `decodeSelect`. -/
theorem checksInOrder_select {c : Config} {w : Word} (hop : w.op = 4) (hm : w &&& 0xFF0FFFFF#32 = 0x40000000#32) :
    ChecksInOrder c w := by
  have hdec := decode_select c hm
  cases hk : c.kind with
  | uart =>
    refine checksInOrder_of_wrongKind ?_ (by simp [hdec, decodeSelect, hk])
    rw [hk, kindIllegal_uart_iff]
    exact .inl hop
  | spi =>
    by_cases he : w.e.toNat < c.nEp
    · exact checksInOrder_of_decode (i := .select w.e) (by simp [hdec, decodeSelect, hk, he])
    · refine checksInOrder_of_endpointRange ?_ ?_ (by simp [hdec, decodeSelect, hk, he])
      · simp [hk, kindIllegal_spi_iff, hop]
      · exact (endpointIllegal_iff c w).2 ⟨hk, .inl hop, Nat.le_of_not_lt he⟩

/-- Every word that fits a format is checked in R72's order: one case per format. -/
theorem checksInOrder_of_format {c : Config} {w : Word} {f : BitVec 4 × Word × Word} (hf : f ∈ formatTable)
    (hop : w.op = f.1) (hm : w &&& f.2.1 = f.2.2) : ChecksInOrder c w := by
  simp only [formatTable, List.mem_cons, List.not_mem_nil, or_false] at hf
  rcases hf with rfl | rfl | rfl | rfl | rfl | rfl | rfl | rfl
  · exact checksInOrder_start hop hm
  · exact checksInOrder_bySession (.inl hop) (decode_status c hm)
  · exact checksInOrder_bySession (.inr hop) (decode_ack c hm)
  · exact checksInOrder_select hop hm
  · -- DESELECT
    cases hk : c.kind with
    | uart =>
      refine checksInOrder_of_wrongKind ?_ (by simp [decode_deselect c hm, decodeDeselect, hk])
      rw [hk, kindIllegal_uart_iff]
      exact .inr (.inl hop)
    | spi => exact checksInOrder_of_decode (i := .deselect) (by simp [decode_deselect c hm, decodeDeselect, hk])
  · -- SETTMO
    cases hk : c.kind with
    | uart =>
      exact checksInOrder_of_decode (i := .settmo w.nt w.low16) (by simp [decode_settmo c hm, decodeSettmo, hk])
    | spi =>
      refine checksInOrder_of_wrongKind ?_ (by simp [decode_settmo c hm, decodeSettmo, hk])
      rw [hk, kindIllegal_spi_iff]
      exact .inr (.inl hop)
  · exact checksInOrder_of_decode (decode_bufwr c hm)
  · exact checksInOrder_of_decode (decode_bufrd c hm)

/-- Settles O9: a reserved OP or bit answers at once, and a word without either fits a format. -/
theorem illegalCausesAreCheckedInOrder : Obligations.IllegalCausesAreCheckedInOrder := by
  intro c w
  have checks : ¬ ReservedOpcode w → ¬ ReservedBit w → ChecksInOrder c w := fun hop hbit =>
    have ⟨_, hf, hf', hm⟩ := format_of_not_reserved hop hbit
    checksInOrder_of_format hf hf' hm
  exact ⟨decode_of_reservedOpcode c, fun _ hbit => decode_of_reservedBit c hbit, fun hop hbit => (checks hop hbit).kind,
    fun hop hbit => (checks hop hbit).endpoint, fun hop hbit => (checks hop hbit).passed⟩

/-! ## The assembler's table (R78) -/

/-- An operand in its field's range fills the field with its value, zero-extended. -/
theorem setWidth_ofNat_field {w n : Nat} (h : n < 2 ^ w) : (BitVec.ofNat w n).setWidth 32 = BitVec.ofNat 32 n := by
  apply BitVec.eq_of_toNat_eq
  simp [Nat.mod_eq_of_lt h]

/-- A row with one operand: the word with the operand in its field, or an assembly error out of the field's range. -/
theorem assembled_one {w m : Nat} (hm : 2 ^ w = m + 1) {mk : BitVec w → Instr} (word : Word → Word)
    (hword : ∀ x, encode (mk x) = word (x.setWidth 32)) (n : Nat) :
    ((asField w n).map fun x => [mk x]).map (List.map encode) =
      if n ≤ m then some [word (BitVec.ofNat 32 n)] else none := by
  by_cases h : n ≤ m
  · have hn : n < 2 ^ w := by omega
    simp [asField, h, hn, hword, setWidth_ofNat_field]
  · have hn : ¬ n < 2 ^ w := by omega
    simp [asField, h, hn]

/-- A row with two operands. -/
theorem assembled_two {w w' m m' : Nat} (hm : 2 ^ w = m + 1) (hm' : 2 ^ w' = m' + 1)
    {mk : BitVec w → BitVec w' → Instr} (word : Word → Word → Word)
    (hword : ∀ x y, encode (mk x y) = word (x.setWidth 32) (y.setWidth 32)) (n k : Nat) :
    ((asField w n).bind fun x => (asField w' k).map fun y => [mk x y]).map (List.map encode) =
      if n ≤ m ∧ k ≤ m' then some [word (BitVec.ofNat 32 n) (BitVec.ofNat 32 k)] else none := by
  by_cases h : n ≤ m
  · have hn : n < 2 ^ w := by omega
    have hrow := assembled_one hm' (mk := mk (BitVec.ofNat w n)) (word (BitVec.ofNat 32 n))
      (fun y => by rw [hword, setWidth_ofNat_field hn]) k
    simpa [asField, h, hn] using hrow
  · have hn : ¬ n < 2 ^ w := by omega
    simp [asField, h, hn]

/-- One BUFWR is a fill of one byte (R79). -/
theorem fillWords_one (wr : BitVec 16 → Byte → Instr) (i b : Nat) :
    fillWords wr i [.num b] = (asField 16 i).bind fun x => (asField 8 b).map fun y => [wr x y] := by
  simp [fillWords, Option.map_eq_bind]

/-- Settles O60: each row is its operands' ranges and its command's word. -/
theorem assemblerWritesTheTablesWords : Obligations.AssemblerWritesTheTablesWords := by
  refine ⟨?_, rfl, fun n => ?_, fun n => ?_, fun n => ?_, fun n e => ?_, fun e => ?_, fun n => ?_, fun i b => ?_,
    fun i b => ?_, fun i => ?_, fun i => ?_⟩
  · simp only [List.forall_mem_cons]
    exact ⟨rfl, rfl, rfl, rfl, rfl, rfl, rfl, nofun⟩
  · exact assembled_one (mk := .startT) rfl (0x10000000#32 ||| ·) (fun _ => rfl) n
  · exact assembled_one (mk := .startR) rfl (0x18000000#32 ||| ·) (fun _ => rfl) n
  · exact assembled_one (mk := .startX none) rfl (0x10000000#32 ||| ·) (fun _ => rfl) n
  · exact assembled_two (mk := fun len ep => .startX (some ep) len) rfl rfl
      (fun len ep => 0x14000000#32 ||| ep <<< 20 ||| len) (fun _ _ => rfl) n e
  · exact assembled_one (mk := .select) rfl (0x40000000#32 ||| · <<< 20) (fun _ => rfl) e
  · exact assembled_one (mk := .settmo false) rfl (0x60000000#32 ||| ·) (fun _ => by simp [encode, bitAt]) n
  · change (fillWords .bufwrT i [.num b]).map (List.map encode) = _
    rw [fillWords_one]
    exact assembled_two (mk := .bufwrT) rfl rfl (fun idx data => 0x70000000#32 ||| idx <<< 8 ||| data)
      (fun _ _ => rfl) i b
  · change (fillWords .bufwrR i [.num b]).map (List.map encode) = _
    rw [fillWords_one]
    exact assembled_two (mk := .bufwrR) rfl rfl (fun idx data => 0x78000000#32 ||| idx <<< 8 ||| data)
      (fun _ _ => rfl) i b
  · exact assembled_one (mk := .bufrdT) rfl (0x80000000#32 ||| · <<< 8) (fun _ => rfl) i
  · exact assembled_one (mk := .bufrdR) rfl (0x88000000#32 ||| · <<< 8) (fun _ => rfl) i

end Sys2Proof.Machine

/-! SUPPORT. The statements that follow from one definition or one branch of it: the reset state's buffers and
collaborators, how a step is taken, what is turned away (spec/42_api.md R109, 30_encoding.md R70 and R71), where START.X
faults (60_exceptions.md R172), the second STATUS.R (70_reset_and_hazards.md section 3), a Finished SPI session, and XCHG
(44_collaborators.md R152). -/

namespace Sys2Proof.Machine

/-! ## Reset -/

/-- Settles O2: no cell of a buffer is listed after reset. -/
theorem unwrittenBytesAreFreeValues : Obligations.UnwrittenBytesAreFreeValues := by
  intro c B i
  cases B <;> rfl

/-- Settles O3: the fields of the reset state. -/
theorem collaboratorsStartInTheirLaunchState : Obligations.CollaboratorsStartInTheirLaunchState :=
  fun _ => ⟨rfl, rfl, rfl, rfl, rfl⟩

/-! ## The step -/

/-- A step whose agent step is an event is that event. -/
theorem step_of_event {s s' : State} {e : Event} (h : s.takeAgentStep = (.event e, s')) : step s = execEvent e s' := by
  simp only [step, h]

/-- A step whose agent step is a command word runs the word, on the parameters of the state it was taken from. -/
theorem step_of_command {s s' : State} {w : Word} (h : s.takeAgentStep = (.command w, s')) :
    step s = runCommand w s' := by
  simp only [step, h]

/-- Settles O11: the parameters stay while the agent step is taken, so the word decodes there too. -/
theorem stepRunsTheDecodedCommand : Obligations.StepRunsTheDecodedCommand := by
  intro s s' w i h hd
  have hcfg : s'.cfg = s.cfg := by simpa [h] using takeAgentStep_cfg s
  rw [step_of_command h, runCommand, hcfg, hd]

/-- Settles O12: `step_of_event` is the statement. -/
theorem stepFiresTheChosenEvent : Obligations.StepFiresTheChosenEvent :=
  fun _ _ _ h => step_of_event h

/-- Settles O13: the two cases of `State.takeAgentStep`. -/
theorem agentStepsComeFromScheduleOrDraw : Obligations.AgentStepsComeFromScheduleOrDraw :=
  fun s => ⟨takeAgentStep_cons s, takeAgentStep_nil s⟩

theorem execEvent_of_disabled {s : State} {e : Event} (h : s.enabled e = false) : execEvent e s = .next s := by
  simp [execEvent, h]

/-- Settles O14: `execEvent_of_disabled` is the statement. -/
theorem disabledEventTakesNoStep : Obligations.DisabledEventTakesNoStep :=
  fun _ _ h => execEvent_of_disabled h

/-! ## Commands of another `KIND`, or with an endpoint out of range (R70, R71) -/

theorem onKind_of_ne {k : Kind} {s : State} (o : Host.Outcome State Fault Refusal) (h : ¬ s.cfg.kind = k) :
    onKind k s o = .next s.illegal :=
  if_neg h

theorem onKind_of_eq {k : Kind} {s : State} (o : Host.Outcome State Fault Refusal) (h : s.cfg.kind = k) :
    onKind k s o = o :=
  if_pos h

/-- Inside its `KIND` or not, a command whose body is ILLEGAL answers ILLEGAL. -/
theorem onKind_illegal (k : Kind) (s : State) : onKind k s (.next s.illegal) = .next s.illegal :=
  ite_self _

theorem onEndpoint_of_ge {e : Endpoint} {s : State} (o : Host.Outcome State Fault Refusal)
    (h : ¬ e.toNat < s.cfg.nEp) : onEndpoint e s o = .next s.illegal :=
  if_neg h

/-- A command that is not of the state's `KIND` answers ILLEGAL: one case per command. -/
theorem exec_of_not_kindOk {i : Instr} {s : State} (h : i.kindOk s.cfg.kind = false) : exec i s = .next s.illegal := by
  cases i with
  | bufwrT _ _ => simp [Instr.kindOk] at h
  | bufwrR _ _ => simp [Instr.kindOk] at h
  | bufrdT _ => simp [Instr.kindOk] at h
  | bufrdR _ => simp [Instr.kindOk] at h
  | _ => exact onKind_of_ne _ (of_decide_eq_false h)

/-- An endpoint operand out of range is START.X's or SELECT's. -/
theorem exec_of_not_endpointOk {i : Instr} {s : State} (h : i.endpointOk s.cfg = false) :
    exec i s = .next s.illegal := by
  cases i with
  | startX ep len =>
    cases ep with
    | none => simp [Instr.endpointOk] at h
    | some e =>
      simp only [exec, execStartX, onEndpoint_of_ge _ (of_decide_eq_false h), onKind_illegal]
  | select e => simp only [exec, execSelect, onEndpoint_of_ge _ (of_decide_eq_false h), onKind_illegal]
  | _ => simp [Instr.endpointOk] at h

/-- Settles O16: a command that is not well formed fails one of the two checks. -/
theorem commandOfAnotherInstanceIsIllegal : Obligations.CommandOfAnotherInstanceIsIllegal := by
  intro i s h
  rcases (Bool.and_eq_false_iff).1 h with hk | he
  · exact exec_of_not_kindOk hk
  · exact exec_of_not_endpointOk he

/-! ## START that is turned away (R109) -/

theorem exec_startT {s : State} (hk : s.cfg.kind = .uart) (len : BitVec 16) :
    exec (.startT len) s = startSession .t len.toNat (startBodyT len.toNat) s :=
  onKind_of_eq _ hk

theorem exec_startR {s : State} (hk : s.cfg.kind = .uart) (len : BitVec 16) :
    exec (.startR len) s = startSession .r len.toNat (startBodyR len.toNat) s :=
  onKind_of_eq _ hk

/-- Settles O18: each START is `startSession`, which turns these away. -/
theorem startIsRejectedWithoutEffect : Obligations.StartIsRejectedWithoutEffect := by
  refine fun s n => ⟨fun hk h => ?_, fun hk h => ?_, fun ep hk hep h => ?_⟩
  · exact (exec_startT hk n).trans (startSession_rejected .t _ _ s h)
  · exact (exec_startR hk n).trans (startSession_rejected .r _ _ s h)
  · exact (exec_startX hk hep n).trans (startSession_rejected .x _ _ s h)

/-! ## START.X without room in TXQ (R85, R172) -/

/-- START.X can fault only where it is not ILLEGAL. -/
theorem wf_of_startX_fault {s : State} {ep : Option Endpoint} {len : BitVec 16} {f : Fault}
    (h : exec (.startX ep len) s = .fault f) : s.cfg.kind = .spi ∧ ∀ e, ep = some e → e.toNat < s.cfg.nEp := by
  rw [← wf_startX_iff s.cfg ep len]
  by_contra hwf
  simp [commandOfAnotherInstanceIsIllegal _ s (by simpa using hwf)] at h

/-- START.X that passes its checks: it completes where TXQ has room for the chunk, and is the fault FifoFull elsewhere. -/
theorem startSession_x_fault_iff {s : State} (ep : Option Endpoint) {n k : Nat} (f : Fault)
    (hk : k = min (n - min n s.rxq.length) s.cfg.fifoCap) :
    startSession .x n (startBodyX ep n) s = .fault f ↔
      f = .fifoFull ∧ s.sX.st = .idle ∧ 1 ≤ n ∧ n ≤ min s.cfg.nTx s.cfg.nRx ∧ 0 < k ∧
        s.cfg.fifoCap < s.txq.length + k := by
  by_cases hrej : s.sX.st ≠ .idle ∨ n = 0 ∨ min s.cfg.nTx s.cfg.nRx < n
  · rw [startSession_rejected .x n _ s hrej]
    refine iff_of_false nofun fun ⟨_, idle, pos, fits, _⟩ => ?_
    rcases hrej with hst | hn | hn
    · exact hst idle
    · omega
    · omega
  · obtain ⟨idle, hn⟩ := not_or.1 hrej
    have idle : s.sX.st = .idle := not_not.1 idle
    have hfits : n ≤ min s.cfg.nTx s.cfg.nRx := by omega
    rw [startSession_accepted .x n _ s idle (by omega) hfits]
    have hcfg : (s.openedX ep n).txq = s.txq := by simp [State.openedX]
    by_cases hroom : k = 0 ∨ s.txq.length + k ≤ s.cfg.fifoCap
    · have hpump := pump_x_ok (s.openedX ep n) k (by simp) (by simpa using hfits) (by simpa using hk)
        (by simpa [hcfg] using hroom)
      have hbody : startBodyX ep n s = _ := hpump
      rw [hbody]
      exact iff_of_false nofun fun ⟨_, _, _, _, hpos, hfull⟩ => by omega
    · have hpump := pump_x_full (s.openedX ep n) k (by simpa using hfits) (by simpa using hk) (by omega)
        (by simp only [openedX_cfg, hcfg]; omega)
      have hbody : startBodyX ep n s = _ := hpump
      rw [hbody]
      constructor
      · intro h
        obtain rfl : Fault.fifoFull = f := by simpa [answerOk] using h
        exact ⟨rfl, idle, by omega, hfits, by omega, by omega⟩
      · rintro ⟨rfl, -⟩
        rfl

/-- Settles O22: an ILLEGAL START.X does not fault, and `startSession_x_fault_iff` is the rest. -/
theorem startSpiFaultsOnlyWithoutRoom : Obligations.StartSpiFaultsOnlyWithoutRoom := by
  rintro s ep len n m k f rfl rfl hk
  constructor
  · intro h
    obtain ⟨hkind, hep⟩ := wf_of_startX_fault h
    rw [exec_startX hkind hep, startSession_x_fault_iff ep f hk] at h
    obtain ⟨hf, h⟩ := h
    exact ⟨hf, hkind, hep, h⟩
  · rintro ⟨hf, hkind, hep, h⟩
    rw [exec_startX hkind hep, startSession_x_fault_iff ep f hk]
    exact ⟨hf, h⟩

/-! ## The second STATUS.R (R101) -/

/-- A running session that holds a byte and whose snapshots are the present ones ends TimedOut at its next check. -/
theorem livenessCheck_of_snapshot {s : State} (hcur : s.sR.cur ≠ s.sR.len) (hheld : 1 ≤ s.sR.cur + s.rxq.length)
    (hvalid : s.watch.pvalid = true) (hpcur : s.watch.pcur = s.sR.cur) (hpfill : s.watch.pfill = s.rxq.length) :
    s.livenessCheck = s.endReceive .timedOut := by
  by_cases hempty : s.rxq = []
  · have hpos : s.sR.cur ≠ 0 := by simp [hempty] at hheld; omega
    simp [State.livenessCheck, hvalid, hpcur, hempty, hcur, hpos]
  · simp [State.livenessCheck, hvalid, hpcur, hpfill, hempty]

/-- STATUS.R of a running session reports after the check. -/
theorem exec_statusR_busy {s : State} (hk : s.cfg.kind = .uart) (busy : s.sR.st = .inProgress) :
    exec .statusR s = .next (s.livenessCheck.reportStatus .r) := by
  rw [exec_statusR hk, if_pos busy]

/-- Settles O25: the first STATUS.R records the snapshots, which the second finds unchanged, or ends the session itself. -/
theorem secondStatusWithoutNewByteAborts : Obligations.SecondStatusWithoutNewByteAborts := by
  intro s hinv hk busy hheld
  have hcur : s.sR.cur ≠ s.sR.len := (hinv.r.cur_lt busy).ne
  have hfirst := exec_statusR_busy hk busy
  rcases livenessCheck_cases s with h | ⟨h, -⟩ | ⟨-, hlen⟩
  · have hsecond := exec_statusR_busy (s := s.recordSnapshot.reportStatus .r) hk busy
    rw [livenessCheck_of_snapshot (s := s.recordSnapshot.reportStatus .r) hcur hheld rfl rfl rfl] at hsecond
    exact ⟨_, _, h ▸ hfirst, hsecond, rfl, rfl⟩
  · have hsecond := exec_statusR (s := (s.endReceive .timedOut).reportStatus .r) hk
    exact ⟨_, _, h ▸ hfirst, hsecond, rfl, rfl⟩
  · exact absurd hlen hcur

/-! ## A Finished SPI session (R90) -/

/-- Settles O59: outside a running session both FIFOs are empty, which is TXF of S_X. -/
theorem spiFinishedIsFlushed : Obligations.SpiFinishedIsFlushed := by
  intro s hinv hk hst
  have htxq : s.txq = [] := ((hinv.spi hk).drained (by simp [hst])).1
  refine ⟨htxq, ((statusOfTransmitIsAPureRead s).2 hk).2.trans ?_⟩
  simp [htxq, hst, statusNumber]

/-! ## XCHG (R152) -/

theorem enabled_xchg_iff {s : State} (hk : s.cfg.kind = .spi) (r : Byte) : s.enabled (.xchg r) = true ↔ s.txq ≠ [] := by
  simp [State.enabled, hk, List.length_pos_iff]

/-- XCHG sends the head of TXQ, and then the byte returned arrives. -/
theorem xchg_eq {s : State} {b : Byte} {l : List Byte} (hq : s.txq = b :: l) (r : Byte) :
    s.xchg r = ((s.setFifo .tx l).emit (.spi s.cs b)).arrive r := by
  have hpop : s.fifoPop .tx = .ok (b, s.setFifo .tx l) := (fifoPop_eq_ok s _ .tx b).2 ⟨l, hq, rfl⟩
  simp [State.xchg, hpop]

/-- Settles O36: XCHG sends, and its arriving byte has the two cases of RX_BYTE. -/
theorem exchangeSendsOneByteAndReceivesOne : Obligations.ExchangeSendsOneByteAndReceivesOne := by
  refine fun s r hk => ⟨enabled_xchg_iff hk r, fun b l hq => ?_⟩
  have he : s.enabled (.xchg r) = true := (enabled_xchg_iff hk r).2 (by simp [hq])
  have hx := xchg_eq hq r
  exact ⟨fun room => execEvent_of_fire he (hx.trans (arrive_of_room (s := (s.setFifo .tx l).emit _) room r)),
    fun full => execEvent_of_fire he (hx.trans (arrive_of_full (s := (s.setFifo .tx l).emit _) full r))⟩

end Sys2Proof.Machine

/-! SUPPORT. What a command and an event do to the whole state, said once as the possible next states, and the statements
about what writes what: the software buffers (spec/20_memory.md R42, R45), the two halves of a UART block (10_state.md R15)
and the cursor of a running session (40_pump.md R89). -/

namespace Sys2Proof.Machine

/-! ## What a command does -/

/-- START of a session; the endpoint is START.X's. -/
def startOf : SessionId → Option Endpoint → BitVec 16 → Instr
  | .t, _, len => .startT len
  | .r, _, len => .startR len
  | .x, ep, len => .startX ep len

/-- BUFWR of a buffer. -/
def bufwrOf : Buf → BitVec 16 → Byte → Instr
  | .tx, idx, v => .bufwrT idx v
  | .rx, idx, v => .bufwrR idx v

/-- The state an accepted START pumps: its session open with length `n` (R110 to R112). -/
def State.opened (s : State) (ep : Option Endpoint) (n : Nat) : SessionId → State
  | .t => s.openSession .t n
  | .r => s.openedR n
  | .x => s.openedX ep n

/-- The next states of the command `i`, run from `s`. -/
inductive CommandEffect (i : Instr) (s : State) : State → Prop where
  /-- the command answers and writes nothing: it was turned away, or it reads -/
  | answered (rc : ResultCode) (p : BitVec 28) : CommandEffect i s (s.respond rc p)
  /-- START of session `k` was accepted (R109 to R113) -/
  | started (k : SessionId) (ep : Option Endpoint) (len : BitVec 16) (u : State) (cmd : i = startOf k ep len)
      (kind : s.cfg.kind = if k = .x then .spi else .uart) (endpoint : ∀ e, ep = some e → e.toNat < s.cfg.nEp)
      (idle : (s.session k).st = .idle) (pos : 1 ≤ len.toNat) (fits : len.toNat ≤ s.capacity k)
      (pump : (s.opened ep len.toNat k).pump k = .ok u) : CommandEffect i s (u.respond .ok 0)
  /-- STATUS.R ran the liveness check (R101, R116) -/
  | checked (cmd : i = .statusR) (kind : s.cfg.kind = .uart) (busy : s.sR.st = .inProgress) :
      CommandEffect i s (s.livenessCheck.reportStatus .r)
  /-- ACK of session `k` was accepted (R117) -/
  | acked (k : SessionId) (cmd : i = ackOf k) (done : (s.session k).st = .finished ∨ (s.session k).st = .timedOut) :
      CommandEffect i s ((s.setSession k (s.session k).acknowledged).respond .ok 0)
  /-- SELECT or DESELECT was accepted (R120, R121) -/
  | selected (cs : Option Endpoint) (cmd : i = .deselect ∨ ∃ e, i = .select e) (kind : s.cfg.kind = .spi)
      (endpoint : ∀ e, cs = some e → e.toNat < s.cfg.nEp) : CommandEffect i s ((s.setSelect cs).respond .ok 0)
  /-- SETTMO (R119) -/
  | reloaded (r : TmoReload) (cmd : ∃ nt tmo, i = .settmo nt tmo) : CommandEffect i s ((s.setReload r).respond .ok 0)
  /-- BUFWR was accepted (R136, R138, R139) -/
  | wrote (B : Buf) (idx : BitVec 16) (v : Byte) (cmd : i = bufwrOf B idx v)
      (free : (s.session (s.owner B)).st ≠ .inProgress) (inside : idx.toNat < s.bufSize B) :
      CommandEffect i s ((s.poke B idx.toNat v).respond .ok 0)

theorem startSession_effect {k : SessionId} {ep : Option Endpoint} {len : BitVec 16} {s t : State}
    {body : State → Except Fault State} (kind : s.cfg.kind = if k = .x then .spi else .uart)
    (endpoint : ∀ e, ep = some e → e.toNat < s.cfg.nEp) (hbody : body s = (s.opened ep len.toNat k).pump k)
    (h : startSession k len.toNat body s = .next t) : CommandEffect (startOf k ep len) s t := by
  rcases startSession_cases k len.toNat body s t h with rfl | ⟨idle, pos, fits, u, hu, rfl⟩
  · exact .answered .rejected 0
  · exact .started k ep len u rfl kind endpoint idle pos fits (hbody ▸ hu)

theorem acknowledge_effect (s : State) (k : SessionId) : CommandEffect (ackOf k) s (s.acknowledge k) := by
  by_cases done : (s.session k).st = .finished ∨ (s.session k).st = .timedOut
  · rw [acknowledge_of_terminal done]
    exact .acked k rfl done
  · rw [acknowledge_of_not_terminal done]
    exact .answered .rejected 0

theorem driveSelect_effect {i : Instr} {s : State} {cs : Option Endpoint} (cmd : i = .deselect ∨ ∃ e, i = .select e)
    (kind : s.cfg.kind = .spi) (endpoint : ∀ e, cs = some e → e.toNat < s.cfg.nEp) :
    CommandEffect i s (s.driveSelect cs) := by
  unfold State.driveSelect
  split
  · exact .answered .rejected 0
  · exact .selected cs cmd kind endpoint

theorem writeBuffer_effect {B : Buf} {idx : BitVec 16} {v : Byte} {s t : State}
    (h : writeBuffer B idx.toNat v s = .next t) : CommandEffect (bufwrOf B idx v) s t := by
  rcases writeBuffer_cases B idx.toNat v s t h with rfl | ⟨free, inside, rfl⟩
  · exact .answered .rejected 0
  · exact .wrote B idx v rfl free inside

theorem readBuffer_effect {i : Instr} {B : Buf} {k : Nat} {s t : State} (h : readBuffer B k s = .next t) :
    CommandEffect i s t := by
  rcases readBuffer_cases B k s t h with rfl | ⟨-, -, rfl⟩
  · exact .answered .rejected 0
  · exact .answered .ok _

/-- What any command does: one case per command. -/
theorem exec_effect (i : Instr) (s t : State) (h : exec i s = .next t) : CommandEffect i s t := by
  have ill : ∀ i, CommandEffect i s s.illegal := fun i => .answered .illegal 0
  revert t
  cases i with
  | startT len => exact of_onKind (ill _) fun hk t h => startSession_effect (k := .t) (ep := none) hk nofun rfl h
  | startR len => exact of_onKind (ill _) fun hk t h => startSession_effect (k := .r) (ep := none) hk nofun rfl h
  | startX ep len =>
    refine of_onKind (ill _) fun hk t h => ?_
    cases ep with
    | none => exact startSession_effect (k := .x) hk nofun rfl h
    | some e =>
      rcases (onEndpoint_eq_next e s t _).1 h with ⟨he, h⟩ | ⟨-, rfl⟩
      · exact startSession_effect (k := .x) hk (by simpa using he) rfl h
      · exact ill _
  | statusT => exact of_onKind_next (ill _) (.answered .ok _)
  | statusR =>
    refine of_onKind (ill _) fun hk t h => Host.Outcome.next.inj h ▸ ?_
    split
    · next busy => exact .checked rfl hk busy
    · exact .answered .ok _
  | statusX => exact of_onKind_next (ill _) (.answered .ok _)
  | ackT => exact of_onKind_next (ill _) (acknowledge_effect s .t)
  | ackR => exact of_onKind_next (ill _) (acknowledge_effect s .r)
  | ackX => exact of_onKind_next (ill _) (acknowledge_effect s .x)
  | select e =>
    refine of_onKind (ill _) fun hk t h => ?_
    rcases (onEndpoint_eq_next e s t _).1 h with ⟨he, h⟩ | ⟨-, rfl⟩
    · exact Host.Outcome.next.inj h ▸ driveSelect_effect (.inr ⟨e, rfl⟩) hk (by simpa using he)
    · exact ill _
  | deselect =>
    exact of_onKind (ill _) fun hk t h => Host.Outcome.next.inj h ▸ driveSelect_effect (.inl rfl) hk nofun
  | settmo nt tmo => exact of_onKind_next (ill _) (.reloaded _ ⟨nt, tmo, rfl⟩)
  | bufwrT idx data => exact fun t h => writeBuffer_effect (B := .tx) h
  | bufwrR idx data => exact fun t h => writeBuffer_effect (B := .rx) h
  | bufrdT idx => exact fun t h => readBuffer_effect h
  | bufrdR idx => exact fun t h => readBuffer_effect h

/-! ## What an event does -/

/-- The next states of the event `e`, taken from `s`. -/
inductive EventEffect (e : Event) (s : State) : State → Prop where
  /-- the event is not enabled -/
  | skipped (off : s.enabled e = false) : EventEffect e s s
  /-- the interrupt of session `k` ran its pump (R93) -/
  | pumped (k : SessionId) (t : State) (ev : e = irqOf k) (on : s.enabled (irqOf k) = true) (pump : s.pump k = .ok t) :
      EventEffect e s t
  /-- TICK (R98) -/
  | ticked (ev : e = .tick) : EventEffect e s s.tick
  /-- TX_LOAD took the head of TXQ (R148) -/
  | loaded (b : Byte) (l : List Byte) (ev : e = .txLoad) (kind : s.cfg.kind = .uart) (empty : s.txsh = none)
      (head : s.txq = b :: l) : EventEffect e s ((s.setFifo .tx l).setShift (some b))
  /-- TX_EMIT sent the byte of the shift register (R149) -/
  | emitted (b : Byte) (ev : e = .txEmit) (kind : s.cfg.kind = .uart) (full : s.txsh = some b) :
      EventEffect e s ((s.emit (.uart b)).setShift none)
  /-- RX_BYTE (R150) -/
  | arrived (b : Byte) (t : State) (ev : e = .rxByte b) (kind : s.cfg.kind = .uart) (h : s.arrive b = .ok t) :
      EventEffect e s t
  /-- XCHG sent the head of TXQ, and the byte `r` arrived (R152) -/
  | exchanged (r b : Byte) (l : List Byte) (t : State) (ev : e = .xchg r) (kind : s.cfg.kind = .spi)
      (head : s.txq = b :: l) (h : ((s.setFifo .tx l).emit (.spi s.cs b)).arrive r = .ok t) : EventEffect e s t

/-- What any event does: one case per event. -/
theorem execEvent_effect (e : Event) (s t : State) (h : execEvent e s = .next t) : EventEffect e s t := by
  rcases execEvent_cases e s t h with ⟨he, h⟩ | ⟨off, rfl⟩
  · cases e with
    | irqT => exact .pumped .t t rfl he h
    | irqR => exact .pumped .r t rfl he h
    | irqX => exact .pumped .x t rfl he h
    | tick => exact Except.ok.inj h ▸ .ticked rfl
    | txLoad =>
      have hk : s.cfg.kind = .uart := by simp_all [State.enabled]
      obtain ⟨b, l, head, rfl⟩ := txLoad_cases s t h
      exact .loaded b l rfl hk ((enabled_txLoad_iff hk).1 he).1 head
    | txEmit =>
      have hk : s.cfg.kind = .uart := by simp_all [State.enabled]
      obtain ⟨b, full⟩ := Option.ne_none_iff_exists'.1 ((enabled_txEmit_iff hk).1 he)
      rw [← Except.ok.inj h, txEmit_of_full full]
      exact .emitted b rfl hk full
    | rxByte b => exact .arrived b t rfl (by simpa [State.enabled] using he) h
    | xchg r =>
      have hk : s.cfg.kind = .spi := by simp_all [State.enabled]
      obtain ⟨b, l, head, h⟩ := xchg_cases s t r h
      exact .exchanged r b l t rfl hk head h
  · exact .skipped off

/-! ## The frames of the parts of a command and an event -/

section Frames

variable (s : State) (ep : Option Endpoint) (n : Nat) (k : SessionId)

@[simp] theorem opened_cfg : (s.opened ep n k).cfg = s.cfg := by
  cases k <;> simp [State.opened, State.openedR]

@[simp] theorem opened_txBuf : (s.opened ep n k).txBuf = s.txBuf := by
  cases k <;> simp [State.opened, State.openedR, State.openedX]

@[simp] theorem opened_rxBuf : (s.opened ep n k).rxBuf = s.rxBuf := by
  cases k <;> simp [State.opened, State.openedR, State.openedX]

@[simp] theorem opened_txq : (s.opened ep n k).txq = s.txq := by
  cases k <;> simp [State.opened, State.openedR, State.openedX]

@[simp] theorem opened_rxq : (s.opened ep n k).rxq = s.rxq := by
  cases k <;> simp [State.opened, State.openedR, State.openedX]

@[simp] theorem opened_txsh : (s.opened ep n k).txsh = s.txsh := by
  cases k <;> simp [State.opened, State.openedR, State.openedX]

@[simp] theorem opened_wire : (s.opened ep n k).wire = s.wire := by
  cases k <;> simp [State.opened, State.openedR, State.openedX]

@[simp] theorem opened_responses : (s.opened ep n k).responses = s.responses := by
  cases k <;> simp [State.opened, State.openedR, State.openedX]

@[simp] theorem opened_schedule : (s.opened ep n k).schedule = s.schedule := by
  cases k <;> simp [State.opened, State.openedR, State.openedX]

@[simp] theorem opened_session : (s.opened ep n k).session k = (s.session k).opened n := by
  cases k with
  | t => rfl
  | r => rfl
  | x => simp [State.opened]

end Frames

/-- The liveness check writes S_R and its watch alone (R101). -/
theorem livenessCheck_frame (s : State) : ∃ f w, s.livenessCheck = (s.setSession .r f).setWatch w := by
  rcases livenessCheck_cases s with h | ⟨h, -⟩ | ⟨h, -⟩ <;> rw [h]
  · exact ⟨s.sR, _, rfl⟩
  · exact ⟨s.sR.ended .timedOut, s.watch, rfl⟩
  · exact ⟨s.sR.ended .finished, s.watch, rfl⟩

/-- TICK writes S_R and its watch alone (R98). -/
theorem tick_frame (s : State) : ∃ f w, s.tick = (s.setSession .r f).setWatch w := by
  rcases tick_cases s with h | ⟨b, -, -, -, ⟨-, h⟩ | ⟨-, h⟩⟩ <;> rw [h]
  · exact ⟨s.sR, s.watch, rfl⟩
  · exact ⟨s.sR, _, rfl⟩
  · exact ⟨_, _, rfl⟩

/-- An arriving byte writes RXQ and the overflow flag alone (R150). -/
theorem arrive_frame {s t : State} {b : Byte} (h : s.arrive b = .ok t) :
    ∃ l v, t = (s.setFifo .rx l).setOverflow v := by
  rw [arrive_eq] at h
  obtain rfl := Except.ok.inj h
  split
  · exact ⟨s.rxq ++ [b], s.rxovf, rfl⟩
  · exact ⟨s.rxq, true, rfl⟩

/-- A pump writes its session, the FIFOs and RxBuf alone; S_T's pump writes nothing on the receive side, and S_R's nothing
on the transmit side (R83 to R85). -/
structure PumpFrame (s t : State) (k : SessionId) : Prop where
  watch : t.watch = s.watch
  txBuf : t.txBuf = s.txBuf
  txsh : t.txsh = s.txsh
  rxovf : t.rxovf = s.rxovf
  wire : t.wire = s.wire
  schedule : t.schedule = s.schedule
  rx_of_t : k = .t → t.rxBuf = s.rxBuf ∧ t.rxq = s.rxq
  tx_of_r : k = .r → t.txq = s.txq

theorem pump_frame {s t : State} {k : SessionId} (h : s.pump k = .ok t) : PumpFrame s t k := by
  cases k with
  | t =>
    obtain rfl := pump_t_cases s t h
    constructor <;> simp
  | r =>
    obtain rfl := pump_r_cases s t h
    constructor <;> simp
  | x =>
    obtain rfl := pump_x_cases s t h
    constructor <;> simp [State.pumpedX]

/-! ## The schedule -/

/-- No command writes the schedule (log 1). -/
theorem CommandEffect.schedule {i : Instr} {s t : State} (h : CommandEffect i s t) : t.schedule = s.schedule := by
  cases h with
  | started k ep len u _ _ _ _ _ _ pump => simp [(pump_frame pump).schedule]
  | checked =>
    obtain ⟨f, w, hf⟩ := livenessCheck_frame s
    simp [State.reportStatus, hf]
  | _ => simp

/-- No event writes the schedule (log 1). -/
theorem EventEffect.schedule {e : Event} {s t : State} (h : EventEffect e s t) : t.schedule = s.schedule := by
  cases h with
  | pumped k _ _ _ pump => exact (pump_frame pump).schedule
  | ticked =>
    obtain ⟨f, w, hf⟩ := tick_frame s
    simp [hf]
  | arrived b _ _ _ h =>
    obtain ⟨l, v, rfl⟩ := arrive_frame h
    simp
  | exchanged r b l _ _ _ _ h =>
    obtain ⟨l', v, rfl⟩ := arrive_frame h
    simp
  | _ => simp

/-! ## Who writes the buffers (R42, R45) -/

/-- BUFWR.T alone writes TxBuf. -/
theorem CommandEffect.txBuf {i : Instr} {s t : State} (h : CommandEffect i s t) :
    t.txBuf = s.txBuf ∨ ∃ idx v, i = .bufwrT idx v := by
  cases h with
  | started k ep len u _ _ _ _ _ _ pump => exact .inl (by simp [(pump_frame pump).txBuf])
  | checked =>
    obtain ⟨f, w, hf⟩ := livenessCheck_frame s
    exact .inl (by simp [State.reportStatus, hf])
  | wrote B idx v cmd =>
    cases B with
    | tx => exact .inr ⟨idx, v, cmd⟩
    | rx => exact .inl (by simp)
  | _ => exact .inl (by simp)

/-- BUFWR.R, START.R and START.X alone write RxBuf. -/
theorem CommandEffect.rxBuf {i : Instr} {s t : State} (h : CommandEffect i s t) :
    t.rxBuf = s.rxBuf ∨ (∃ idx v, i = .bufwrR idx v) ∨ (∃ len, i = .startR len) ∨ ∃ ep len, i = .startX ep len := by
  cases h with
  | started k ep len u cmd _ _ _ _ _ pump =>
    cases k with
    | t => exact .inl (by simp [((pump_frame pump).rx_of_t rfl).1])
    | r => exact .inr (.inr (.inl ⟨len, cmd⟩))
    | x => exact .inr (.inr (.inr ⟨ep, len, cmd⟩))
  | checked =>
    obtain ⟨f, w, hf⟩ := livenessCheck_frame s
    exact .inl (by simp [State.reportStatus, hf])
  | wrote B idx v cmd =>
    cases B with
    | tx => exact .inl (by simp)
    | rx => exact .inr (.inl ⟨idx, v, cmd⟩)
  | _ => exact .inl (by simp)

/-- No event writes TxBuf, and IRQ_R and IRQ_X alone write RxBuf. -/
theorem EventEffect.bufs {e : Event} {s t : State} (h : EventEffect e s t) :
    t.txBuf = s.txBuf ∧ (t.rxBuf = s.rxBuf ∨ e = .irqR ∨ e = .irqX) := by
  cases h with
  | pumped k _ ev _ pump =>
    refine ⟨(pump_frame pump).txBuf, ?_⟩
    cases k with
    | t => exact .inl ((pump_frame pump).rx_of_t rfl).1
    | r => exact .inr (.inl ev)
    | x => exact .inr (.inr ev)
  | ticked =>
    obtain ⟨f, w, hf⟩ := tick_frame s
    simp [hf]
  | arrived b _ _ _ h =>
    obtain ⟨l, v, rfl⟩ := arrive_frame h
    simp
  | exchanged r b l _ _ _ _ h =>
    obtain ⟨l', v, rfl⟩ := arrive_frame h
    simp
  | _ => simp

/-- Taking the agent step writes no buffer. -/
theorem takeAgentStep_buf (s : State) (B : Buf) : s.takeAgentStep.2.buf B = s.buf B := by
  obtain ⟨l, n, h⟩ := takeAgentStep_frame s
  rw [h]
  cases B <;> rfl

/-- Settles O51: the writers among the commands and among the events. -/
theorem buffersAreWrittenOnlyByTheirWriters : Obligations.BuffersAreWrittenOnlyByTheirWriters := by
  intro s t hstep
  have htx : s.takeAgentStep.2.txBuf = s.txBuf := takeAgentStep_buf s .tx
  have hrx : s.takeAgentStep.2.rxBuf = s.rxBuf := takeAgentStep_buf s .rx
  rw [← htx, ← hrx]
  rcases step_cases s t hstep with ⟨w, i, hw, hd, hi⟩ | ⟨w, c, -, -, rfl⟩ | ⟨e, he, hs⟩
  · have hnext : NextCommandIs s i := ⟨w, hw, by simpa using hd⟩
    refine ⟨(exec_effect i _ t hi).txBuf.imp_right ?_, (exec_effect i _ t hi).rxBuf.imp_right ?_⟩
    · rintro ⟨idx, v, rfl⟩
      exact ⟨idx, v, hnext⟩
    · rintro (⟨idx, v, rfl⟩ | ⟨len, rfl⟩ | ⟨ep, len, rfl⟩)
      · exact .inl ⟨idx, v, hnext⟩
      · exact .inr (.inl ⟨len, hnext⟩)
      · exact .inr (.inr (.inl ⟨ep, len, hnext⟩))
  · exact ⟨.inl rfl, .inl rfl⟩
  · obtain ⟨htx, hrx⟩ := (execEvent_effect e _ t hs).bufs
    refine ⟨.inl htx, hrx.imp_right ?_⟩
    rintro (rfl | rfl)
    · exact .inr (.inr (.inr (.inl he)))
    · exact .inr (.inr (.inr (.inr he)))

/-- The session that a START of the `KIND` opens owns RxBuf, unless it is S_T (R26). -/
theorem owner_rx_of_start {s : State} {k : SessionId} (kind : s.cfg.kind = if k = .x then .spi else .uart)
    (hk : k ≠ .t) : s.owner .rx = k := by
  cases k with
  | t => exact absurd rfl hk
  | r => simp [State.owner, show s.cfg.kind = .uart from kind]
  | x => simp [State.owner, show s.cfg.kind = .spi from kind]

/-- No command writes a buffer whose owner is InProgress: BUFWR needs it free, and START needs its session Idle. -/
theorem CommandEffect.buf_of_busy {i : Instr} {s t : State} (h : CommandEffect i s t) (B : Buf)
    (busy : (s.session (s.owner B)).st = .inProgress) : t.buf B = s.buf B := by
  cases h with
  | started k ep len u _ kind _ idle _ _ pump =>
    cases B with
    | tx => simp [(pump_frame pump).txBuf]
    | rx =>
      by_cases hk : k = .t
      · simp [((pump_frame pump).rx_of_t hk).1]
      · rw [owner_rx_of_start kind hk, idle] at busy
        exact absurd busy nofun
  | checked =>
    obtain ⟨f, w, hf⟩ := livenessCheck_frame s
    cases B <;> simp [State.reportStatus, hf]
  | wrote B' idx v _ free =>
    cases B <;> cases B'
    · exact absurd busy free
    · rfl
    · rfl
    · exact absurd busy free
  | acked k => cases B <;> simp
  | _ => cases B <;> rfl

/-- Settles O52: `CommandEffect.buf_of_busy`, from the state the word was taken from. -/
theorem hostCannotWriteABusyBuffer : Obligations.HostCannotWriteABusyBuffer := by
  intro s t B w _ hw busy hstep
  have howner : s.takeAgentStep.2.owner B = s.owner B := by simp [State.owner]
  rw [← takeAgentStep_buf s B]
  rcases step_cases s t hstep with ⟨w, i, -, -, hi⟩ | ⟨w, c, -, -, rfl⟩ | ⟨e, he, -⟩
  · exact (exec_effect i _ t hi).buf_of_busy B (by rwa [howner, takeAgentStep_session])
  · cases B <;> rfl
  · rw [hw] at he
    exact absurd he nofun

/-! ## The two halves of a UART block (R15) -/

/-- The receive half is as before. -/
def ReceiveHalfKept (s t : State) : Prop :=
  t.sR = s.sR ∧ t.watch = s.watch ∧ t.rxBuf = s.rxBuf ∧ t.rxq = s.rxq ∧ t.rxovf = s.rxovf

/-- The transmit half is as before. -/
def TransmitHalfKept (s t : State) : Prop :=
  t.sT = s.sT ∧ t.txBuf = s.txBuf ∧ t.txq = s.txq ∧ t.txsh = s.txsh ∧ t.wire = s.wire

theorem pump_t_receiveHalf {s t : State} (h : s.pump .t = .ok t) : ReceiveHalfKept s t := by
  obtain rfl := pump_t_cases s t h
  exact ⟨rfl, rfl, rfl, rfl, rfl⟩

theorem pump_r_transmitHalf {s t : State} (h : s.pump .r = .ok t) : TransmitHalfKept s t := by
  obtain rfl := pump_r_cases s t h
  exact ⟨rfl, rfl, rfl, rfl, rfl⟩

/-- The commands of the transmit half. -/
def TransmitCommand (i : Instr) : Prop :=
  isStartOf .t i ∨ i = .statusT ∨ i = .ackT ∨ (∃ k v, i = .bufwrT k v) ∨ ∃ k, i = .bufrdT k

/-- The commands of the receive half. -/
def ReceiveCommand (i : Instr) : Prop :=
  isStartOf .r i ∨ i = .statusR ∨ i = .ackR ∨ (∃ k v, i = .bufwrR k v) ∨ ∃ k, i = .bufrdR k

/-- Among the writing commands, those of the transmit half are START.T, ACK.T and BUFWR.T. -/
theorem TransmitCommand.writers {i : Instr} (hi : TransmitCommand i) :
    (∀ k ep len, i = startOf k ep len → k = .t) ∧ (∀ k, i = ackOf k → k = .t) ∧
      ∀ B idx v, i = bufwrOf B idx v → B = .tx := by
  refine ⟨fun k ep len h => ?_, fun k h => ?_, fun B idx v h => ?_⟩ <;> subst h
  · cases k <;> simp_all [TransmitCommand, isStartOf, startOf]
  · cases k <;> simp_all [TransmitCommand, isStartOf, ackOf]
  · cases B <;> simp_all [TransmitCommand, isStartOf, bufwrOf]

/-- Among the writing commands, those of the receive half are START.R, STATUS.R, ACK.R and BUFWR.R. -/
theorem ReceiveCommand.writers {i : Instr} (hi : ReceiveCommand i) :
    (∀ k ep len, i = startOf k ep len → k = .r) ∧ (∀ k, i = ackOf k → k = .r) ∧
      ∀ B idx v, i = bufwrOf B idx v → B = .rx := by
  refine ⟨fun k ep len h => ?_, fun k h => ?_, fun B idx v h => ?_⟩ <;> subst h
  · cases k <;> simp_all [ReceiveCommand, isStartOf, startOf]
  · cases k <;> simp_all [ReceiveCommand, isStartOf, ackOf]
  · cases B <;> simp_all [ReceiveCommand, isStartOf, bufwrOf]

/-- A transmit command writes S_T, TxBuf, TXQ and the response alone. -/
theorem CommandEffect.receiveHalf {i : Instr} {s t : State} (h : CommandEffect i s t) (hi : TransmitCommand i) :
    ReceiveHalfKept s t := by
  obtain ⟨starts, acks, writes⟩ := hi.writers
  cases h with
  | answered => exact ⟨rfl, rfl, rfl, rfl, rfl⟩
  | started k ep len u cmd _ _ _ _ _ pump =>
    obtain rfl := starts k ep len cmd
    have hkept : ReceiveHalfKept (s.openSession .t len.toNat) u := pump_t_receiveHalf pump
    exact hkept
  | checked cmd => simp [TransmitCommand, isStartOf, cmd] at hi
  | acked k cmd =>
    obtain rfl := acks k cmd
    exact ⟨rfl, rfl, rfl, rfl, rfl⟩
  | selected => exact ⟨rfl, rfl, rfl, rfl, rfl⟩
  | reloaded => exact ⟨rfl, rfl, rfl, rfl, rfl⟩
  | wrote B idx v cmd =>
    obtain rfl := writes B idx v cmd
    exact ⟨rfl, rfl, rfl, rfl, rfl⟩

/-- A receive command writes S_R, its watch, the overflow flag, RxBuf, RXQ and the response alone. -/
theorem CommandEffect.transmitHalf {i : Instr} {s t : State} (h : CommandEffect i s t) (hi : ReceiveCommand i) :
    TransmitHalfKept s t := by
  obtain ⟨starts, acks, writes⟩ := hi.writers
  cases h with
  | answered => exact ⟨rfl, rfl, rfl, rfl, rfl⟩
  | started k ep len u cmd _ _ _ _ _ pump =>
    obtain rfl := starts k ep len cmd
    have hkept : TransmitHalfKept (s.openedR len.toNat) u := pump_r_transmitHalf pump
    exact hkept
  | checked =>
    obtain ⟨f, w, hf⟩ := livenessCheck_frame s
    rw [hf]
    exact ⟨rfl, rfl, rfl, rfl, rfl⟩
  | acked k cmd =>
    obtain rfl := acks k cmd
    exact ⟨rfl, rfl, rfl, rfl, rfl⟩
  | selected => exact ⟨rfl, rfl, rfl, rfl, rfl⟩
  | reloaded => exact ⟨rfl, rfl, rfl, rfl, rfl⟩
  | wrote B idx v cmd =>
    obtain rfl := writes B idx v cmd
    exact ⟨rfl, rfl, rfl, rfl, rfl⟩

/-- IRQ_T, TX_LOAD and TX_EMIT write nothing of the receive half. -/
theorem EventEffect.receiveHalf {e : Event} {s t : State} (h : EventEffect e s t)
    (he : e = .irqT ∨ e = .txLoad ∨ e = .txEmit) : ReceiveHalfKept s t := by
  cases h with
  | pumped k _ ev _ pump =>
    have hk : k = .t := by cases k <;> simp_all [irqOf]
    subst hk
    exact pump_t_receiveHalf pump
  | ticked ev => simp [ev] at he
  | arrived b _ ev => simp [ev] at he
  | exchanged r b l _ ev => simp [ev] at he
  | _ => exact ⟨rfl, rfl, rfl, rfl, rfl⟩

/-- IRQ_R, TICK and RX_BYTE write nothing of the transmit half. -/
theorem EventEffect.transmitHalf {e : Event} {s t : State} (h : EventEffect e s t)
    (he : e = .irqR ∨ e = .tick ∨ ∃ b, e = .rxByte b) : TransmitHalfKept s t := by
  cases h with
  | skipped => exact ⟨rfl, rfl, rfl, rfl, rfl⟩
  | pumped k _ ev _ pump =>
    have hk : k = .r := by cases k <;> simp_all [irqOf]
    subst hk
    exact pump_r_transmitHalf pump
  | ticked =>
    obtain ⟨f, w, hf⟩ := tick_frame s
    rw [hf]
    exact ⟨rfl, rfl, rfl, rfl, rfl⟩
  | arrived b _ _ _ h =>
    obtain ⟨l, v, rfl⟩ := arrive_frame h
    exact ⟨rfl, rfl, rfl, rfl, rfl⟩
  | loaded b l ev => simp [ev] at he
  | emitted b ev => simp [ev] at he
  | exchanged r b l _ ev => simp [ev] at he

/-- Settles O53: what the commands and the events of one half leave of the other. -/
theorem uartHalvesAreIndependent : Obligations.UartHalvesAreIndependent :=
  fun s _ => ⟨fun i t hi h => (exec_effect i s t h).receiveHalf hi, fun i t hi h => (exec_effect i s t h).transmitHalf hi,
    fun e t he h => (execEvent_effect e s t h).receiveHalf he, fun e t he h => (execEvent_effect e s t h).transmitHalf he⟩

/-! ## The cursor of a running session (R89) -/

/-- What a command makes of a running session: STATUS.R alone writes one, and keeps its length and cursor. -/
theorem CommandChange.cursor_of_busy {i : Instr} {s : State} {id : SessionId} {g : Session} (h : CommandChange i s id g)
    (busy : (s.session id).st = .inProgress) : g.len = (s.session id).len ∧ g.cur = (s.session id).cur := by
  cases h with
  | kept h => exact h ▸ ⟨rfl, rfl⟩
  | started n m _ idle => simp [busy] at idle
  | checked st _ _ _ _ h => exact h ▸ ⟨rfl, rfl⟩
  | acked _ done => simp [busy] at done

/-- What an event makes of a running session: its interrupt moves the cursor, inside the length. -/
theorem EventChange.cursor {e : Event} {s : State} {id : SessionId} {g : Session} (h : EventChange e s id g) :
    g.len = (s.session id).len ∧ (s.session id).cur ≤ g.cur := by
  cases h with
  | kept h => exact h ▸ ⟨rfl, Nat.le_refl _⟩
  | pumped m _ _ _ h => exact h ▸ ⟨rfl, Nat.le_add_right _ m⟩
  | expired _ _ _ h => exact h ▸ ⟨rfl, Nat.le_refl _⟩

/-- Settles O49: each change of a running session's fields, and the invariant of the next state's session. -/
theorem cursorOnlyAdvances : Obligations.CursorOnlyAdvances := by
  intro s t id hinv busy hstep
  have hle := (step_keeps_sessionInv s t id hstep (hinv.session id)).cur_le
  have hmoves : (t.session id).len = (s.session id).len ∧ (s.session id).cur ≤ (t.session id).cur := by
    rcases step_change s t hstep id with hk | ⟨i, -, hc⟩ | ⟨e, -, hc⟩
    · exact hk ▸ ⟨rfl, Nat.le_refl _⟩
    · exact (hc.cursor_of_busy busy).imp_right Eq.ge
    · exact hc.cursor
  exact ⟨hmoves.1, hmoves.2, hle⟩

end Sys2Proof.Machine

/-! SUPPORT. The machine's invariant (spec/10_state.md section 6, 40_pump.md R88, 41_timeout.md R100, 60_exceptions.md R172):
its parts, that every step keeps each of them and completes, and what follows for the runs from reset. -/

namespace Sys2Proof.Machine

/-! ## The parts of the invariant -/

/-- What the invariant says of the statuses beside R30: S_R alone times out (R169), and the sessions of the other `KIND`
stay Idle (R15). -/
structure StatusInv (s : State) : Prop where
  no_timeout : ∀ id, id ≠ .r → (s.session id).st ≠ .timedOut
  foreign : ∀ id, (s.cfg.kind ≠ if id = .x then .spi else .uart) → (s.session id).st = .idle

/-- What the invariant says of all but the sessions and R88: the watch, the FIFOs' capacity, the buffers, `cs`, the shift
register, the wire log and the responses. -/
structure PlantInv (s : State) : Prop where
  watch : WatchInv s
  txq_le : s.txq.length ≤ s.cfg.fifoCap
  rxq_le : s.rxq.length ≤ s.cfg.fifoCap
  txBuf : Memory.wf s.cfg.nTx s.txBuf
  rxBuf : Memory.wf s.cfg.nRx s.rxBuf
  cs : ∀ e, s.cs = some e → e.toNat < s.cfg.nEp
  no_cs : s.cfg.kind = .uart → s.cs = none
  no_shift : s.cfg.kind = .spi → s.txsh = none
  wire : ∀ w ∈ s.wire, w.kind = s.cfg.kind
  responses : ∀ w ∈ s.responses, w.op.toNat ≤ 2

theorem Inv.sessions {s : State} (h : Inv s) : SessionsInv s :=
  ⟨h.cfg.1.1, h.session⟩

theorem Inv.status {s : State} (h : Inv s) : StatusInv s := by
  refine ⟨fun id hid => ?_, fun id hk => ?_⟩
  · cases id with
    | t => exact h.t_no_timeout
    | r => exact absurd rfl hid
    | x => exact h.x_no_timeout
  · cases hkind : s.cfg.kind with
    | uart =>
      obtain rfl : id = .x := by cases id <;> simp_all
      exact (h.uart hkind).no_x
    | spi =>
      cases id with
      | t => exact (h.spi hkind).no_t
      | r => exact (h.spi hkind).no_r
      | x => exact absurd hkind hk

theorem Inv.plant {s : State} (h : Inv s) : PlantInv s where
  watch := h.watch
  txq_le := h.txq_le
  rxq_le := h.rxq_le
  txBuf := h.txBuf
  rxBuf := h.rxBuf
  cs := h.cs
  no_cs := fun hk => (h.uart hk).no_cs
  no_shift := fun hk => (h.spi hk).no_shift
  wire := h.wire
  responses := h.responses

/-- The parts make up the invariant. -/
theorem inv_of_parts {s : State} (cfg : s.cfg.wf) (sessions : SessionsInv s) (status : StatusInv s) (plant : PlantInv s)
    (chunk : s.cfg.kind = .spi → OneChunk s) : Inv s where
  cfg := cfg
  t := sessions.2 .t
  r := sessions.2 .r
  x := sessions.2 .x
  t_no_timeout := status.no_timeout .t nofun
  x_no_timeout := status.no_timeout .x nofun
  watch := plant.watch
  txq_le := plant.txq_le
  rxq_le := plant.rxq_le
  txBuf := plant.txBuf
  rxBuf := plant.rxBuf
  cs := plant.cs
  wire := plant.wire
  responses := plant.responses
  uart := fun hk => ⟨status.foreign .x (by simp [hk]), plant.no_cs hk⟩
  spi := fun hk =>
    ⟨status.foreign .t (by simp [hk]), status.foreign .r (by simp [hk]), plant.no_shift hk, (chunk hk).in_flight,
      (chunk hk).drained, (chunk hk).no_overflow⟩

/-- What the watch keeps depends on itself, S_R, the parameters and RXQ alone. -/
theorem WatchInv.congr {s t : State} (h : WatchInv s) (watch : t.watch = s.watch) (sR : t.sR = s.sR) (cfg : t.cfg = s.cfg)
    (rxq : t.rxq = s.rxq) : WatchInv t := by
  constructor <;> simp only [watch, sR, cfg, fill_rx, rxq]
  · exact h.budget
  · exact h.running
  · exact h.pcur_le
  · exact h.pfill_le
  · exact h.snapshot

/-- The schedule and the draws are no part of the invariant (log 1). -/
theorem Inv.setAgents {s : State} (h : Inv s) (l : List AgentStep) (n : Nat) :
    Inv { s with schedule := l, drawn := n } :=
  { h with
    watch := h.watch.congr rfl rfl rfl rfl
    uart := fun hk => ⟨(h.uart hk).no_x, (h.uart hk).no_cs⟩
    spi := fun hk =>
      have hs := h.spi hk
      ⟨hs.no_t, hs.no_r, hs.no_shift, hs.in_flight, hs.drained, hs.no_overflow⟩ }

theorem Inv.takeAgentStep {s : State} (h : Inv s) : Inv s.takeAgentStep.2 := by
  obtain ⟨l, n, hf⟩ := takeAgentStep_frame s
  exact hf ▸ h.setAgents l n

/-! ## The reset state -/

/-- The reset state meets the invariant, whatever is scheduled: nothing is running, stored, queued or answered. -/
theorem inv_resetOf {c : Config} (hc : c.wf) : Inv (State.resetOf c) := by
  have hsession : ∀ id, ((State.resetOf c).session id).st = .idle := fun id => by rw [resetOf_session]; rfl
  refine inv_of_parts hc ⟨hc.1.1, fun id => ?_⟩ ⟨fun id _ => ?_, fun id _ => hsession id⟩ ?_ fun _ => ?_
  · rw [resetOf_session]
    exact sessionInv_reset _ _
  · rw [hsession id]
    nofun
  · exact
      { watch := ⟨nofun, nofun, Nat.le_refl 0, Nat.zero_le _, nofun⟩
        txq_le := Nat.zero_le _
        rxq_le := Nat.zero_le _
        txBuf := ⟨List.Pairwise.nil, nofun⟩
        rxBuf := ⟨List.Pairwise.nil, nofun⟩
        cs := nofun
        no_cs := fun _ => rfl
        no_shift := fun _ => rfl
        wire := nofun
        responses := nofun }
  · exact ⟨nofun, fun _ => ⟨rfl, rfl⟩, rfl⟩

/-- Settles O4: `inv_resetOf` is the statement. -/
theorem resetMeetsTheInvariant : Obligations.ResetMeetsTheInvariant :=
  fun _ hc => inv_resetOf hc

/-! ## The statuses -/

/-- START is well formed on its session's `KIND` (R70). -/
theorem kind_of_start {c : Config} {i : Instr} {id : SessionId} (cmd : isStartOf id i) (hwf : i.wf c = true) :
    c.kind = if id = .x then .spi else .uart := by
  obtain ⟨hk, -⟩ := (wf_iff c i).1 hwf
  cases id with
  | t =>
    obtain ⟨n, rfl⟩ := cmd
    exact of_decide_eq_true hk
  | r =>
    obtain ⟨n, rfl⟩ := cmd
    exact of_decide_eq_true hk
  | x =>
    obtain ⟨ep, n, rfl⟩ := cmd
    exact of_decide_eq_true hk

theorem CommandChange.no_timeout {i : Instr} {s : State} {id : SessionId} {g : Session} (h : CommandChange i s id g)
    (hid : id ≠ .r) (hs : (s.session id).st ≠ .timedOut) : g.st ≠ .timedOut := by
  cases h with
  | kept h => exact h ▸ hs
  | started n m _ _ _ _ _ _ h => by_cases hm : m = n <;> simp [h, hm]
  | checked st _ recv => exact absurd recv hid
  | acked _ _ h => simp [h, Session.acknowledged]

theorem EventChange.no_timeout {e : Event} {s : State} {id : SessionId} {g : Session} (h : EventChange e s id g)
    (hid : id ≠ .r) (hs : (s.session id).st ≠ .timedOut) : g.st ≠ .timedOut := by
  cases h with
  | kept h => exact h ▸ hs
  | pumped m _ _ _ h => by_cases hm : (s.session id).cur + m = (s.session id).len <;> simp [h, hm, hs]
  | expired _ recv => exact absurd recv hid

/-- A well-formed command leaves a session of the other `KIND` Idle. -/
theorem CommandChange.foreign {i : Instr} {s : State} {id : SessionId} {g : Session} (h : CommandChange i s id g)
    (hwf : i.wf s.cfg = true) (hk : s.cfg.kind ≠ if id = .x then .spi else .uart) (idle : (s.session id).st = .idle) :
    g.st = .idle := by
  cases h with
  | kept h => exact h ▸ idle
  | started n m cmd => exact absurd (kind_of_start cmd hwf) hk
  | checked st _ _ busy => simp [idle] at busy
  | acked _ done => simp [idle] at done

theorem EventChange.keeps_idle {e : Event} {s : State} {id : SessionId} {g : Session} {cap fifoCap : Nat}
    (h : EventChange e s id g) (hs : SessionInv (s.session id) cap fifoCap) (idle : (s.session id).st = .idle) :
    g.st = .idle := by
  cases h with
  | kept h => exact h ▸ idle
  | pumped m _ ie => exact absurd (hs.ie.1 ie) (by simp [idle])
  | expired _ _ busy => simp [idle] at busy

theorem step_keeps_statusInv {s t : State} (hsessions : SessionsInv s) (hs : StatusInv s) (h : step s = .next t) :
    StatusInv t := by
  refine ⟨fun id hid => ?_, fun id hk => ?_⟩
  · have hst := hs.no_timeout id hid
    rcases step_change s t h id with hkept | ⟨i, -, hc⟩ | ⟨e, -, hc⟩
    · exact hkept ▸ hst
    · exact hc.no_timeout hid hst
    · exact hc.no_timeout hid hst
  · rw [step_cfg s t h] at hk
    have hst := hs.foreign id hk
    rcases step_change s t h id with hkept | ⟨i, ⟨w, -, hd⟩, hc⟩ | ⟨e, -, hc⟩
    · exact hkept ▸ hst
    · exact hc.foreign (isWordOf_of_decode hd).2 hk hst
    · exact hc.keeps_idle (hsessions.2 id) hst

/-! ## The watch, the FIFOs, the buffers and the rest: what each operation keeps -/

/-- Outside a running receive session the watch keeps its ranges alone. -/
theorem watchInv_of_not_busy {s : State} (idle : s.sR.st ≠ .inProgress)
    (budget : ∀ t, s.watch.tmo = some t → -1 ≤ t ∧ t ≤ 65535) (pcur_le : s.watch.pcur ≤ s.sR.len)
    (pfill_le : s.watch.pfill ≤ s.cfg.fifoCap) : WatchInv s :=
  ⟨budget, fun _ busy => absurd busy idle, pcur_le, pfill_le, fun busy => absurd busy idle⟩

/-- RC is OK, REJECTED or ILLEGAL (R74). -/
theorem op_responseWord_le (rc : ResultCode) (p : BitVec 28) : (Word.op (responseWord rc p)).toNat ≤ 2 := by
  have hop : Word.op (responseWord rc p) = rc.bits := by
    ext i hi
    have hbit : (rc.bits ++ p).getLsbD (28 + i) = _ := BitVec.getLsbD_append
    simpa [Word.op, responseWord, BitVec.getLsbD_eq_getElem hi] using hbit
  rw [hop]
  cases rc <;> decide

theorem PlantInv.respond {s : State} (h : PlantInv s) (rc : ResultCode) (p : BitVec 28) : PlantInv (s.respond rc p) :=
  { h with
    watch := h.watch.congr rfl rfl rfl rfl
    responses := List.forall_mem_append.2 ⟨h.responses, List.forall_mem_singleton.2 (op_responseWord_le rc p)⟩ }

theorem PlantInv.setReload {s : State} (h : PlantInv s) (r : TmoReload) : PlantInv (s.setReload r) :=
  { h with watch := h.watch.congr rfl rfl rfl rfl }

theorem PlantInv.setOverflow {s : State} (h : PlantInv s) (v : Bool) : PlantInv (s.setOverflow v) :=
  { h with watch := h.watch.congr rfl rfl rfl rfl }

theorem PlantInv.setSelect {s : State} (h : PlantInv s) {cs : Option Endpoint} (kind : s.cfg.kind = .spi)
    (endpoint : ∀ e, cs = some e → e.toNat < s.cfg.nEp) : PlantInv (s.setSelect cs) :=
  { h with
    watch := h.watch.congr rfl rfl rfl rfl
    cs := endpoint
    no_cs := fun hk => by simp [kind] at hk }

theorem PlantInv.poke {s : State} (h : PlantInv s) {B : Buf} {i : Nat} (v : Byte) (inside : i < s.bufSize B) :
    PlantInv (s.poke B i v) := by
  cases B with
  | tx =>
    exact { h with watch := h.watch.congr rfl rfl rfl rfl, txBuf := insert_wf _ _ i v h.txBuf inside }
  | rx =>
    exact { h with watch := h.watch.congr rfl rfl rfl rfl, rxBuf := insert_wf _ _ i v h.rxBuf inside }

/-- A session's fields matter to the watch alone, and S_R's only while it runs. -/
theorem PlantInv.setSession {s : State} (h : PlantInv s) {k : SessionId} {f : Session} (st : f.st ≠ .inProgress)
    (len : f.len = (s.session k).len) : PlantInv (s.setSession k f) := by
  cases k with
  | t => exact { h with watch := h.watch.congr rfl rfl rfl rfl }
  | r => exact { h with watch := watchInv_of_not_busy st h.watch.budget (len ▸ h.watch.pcur_le) h.watch.pfill_le }
  | x => exact { h with watch := h.watch.congr rfl rfl rfl rfl }

theorem PlantInv.recordSnapshot {s : State} (h : PlantInv s) (cur_le : s.sR.cur ≤ s.sR.len) :
    PlantInv s.recordSnapshot :=
  { h with
    watch := ⟨h.watch.budget, h.watch.running, cur_le, h.rxq_le, fun _ _ => ⟨Nat.le_refl _, fun _ => Nat.le_refl _⟩⟩ }

theorem PlantInv.livenessCheck {s : State} (h : PlantInv s) (cur_le : s.sR.cur ≤ s.sR.len) :
    PlantInv s.livenessCheck := by
  rcases livenessCheck_cases s with hc | ⟨hc, -⟩ | ⟨hc, -⟩ <;> rw [hc]
  · exact h.recordSnapshot cur_le
  · exact h.setSession (k := .r) nofun rfl
  · exact h.setSession (k := .r) nofun rfl

/-- The budget that START.R loads is in range (R97). -/
theorem budget_range {r : TmoReload} {b : Int} (h : r.budget = some b) : 0 ≤ b ∧ b ≤ 65535 := by
  have hval := r.val.isLt
  unfold TmoReload.budget at h
  split at h
  · exact absurd h nofun
  · obtain rfl := Option.some.inj h
    simp only [Int.ofNat_eq_natCast]
    omega

/-- Opening a session loads the watch of S_R, selects the endpoint of S_X, and writes nothing else here. -/
theorem PlantInv.opened {s : State} (h : PlantInv s) {k : SessionId} {ep : Option Endpoint} (n : Nat)
    (kind : s.cfg.kind = if k = .x then .spi else .uart) (endpoint : ∀ e, ep = some e → e.toNat < s.cfg.nEp) :
    PlantInv (s.opened ep n k) := by
  cases k with
  | t => exact { h with watch := h.watch.congr rfl rfl rfl rfl }
  | r =>
    refine { h with watch := ⟨fun b hb => ?_, fun b _ hb => (budget_range hb).1, Nat.zero_le _, Nat.zero_le _, nofun⟩ }
    obtain ⟨h0, h1⟩ := budget_range hb
    exact ⟨by omega, h1⟩
  | x =>
    have hsel : PlantInv (s.selectOptional ep) := by
      cases ep with
      | none => exact h
      | some e => exact h.setSelect kind endpoint
    exact { hsel.setOverflow false with watch := (hsel.setOverflow false).watch.congr rfl rfl rfl rfl }

/-- What `Pump(S)` needs to complete: its session's cursor inside its length and its length inside the buffers; and on SPI
an empty TXQ, with no receive session running. -/
structure PumpReady (s : State) (k : SessionId) : Prop where
  cur_le : (s.session k).cur ≤ (s.session k).len
  fits : (s.session k).len ≤ s.capacity k
  txq : k = .x → s.txq = []
  no_r : k = .x → s.sR.st ≠ .inProgress

theorem PumpReady.completes {s : State} {k : SessionId} (h : PumpReady s k) : ∃ t, s.pump k = .ok t := by
  cases k with
  | t => exact ⟨_, pump_t_ok s h.cur_le h.fits⟩
  | r => exact ⟨_, pump_r_ok s h.cur_le h.fits⟩
  | x => exact ⟨_, pump_x_ok s _ h.cur_le h.fits rfl (.inr (by simp [h.txq rfl]))⟩

/-- A receive half stores inside RxBuf (R84, R85). -/
theorem wf_store_drained {s : State} {k : SessionId} (h : Memory.wf s.cfg.nRx s.rxBuf)
    (cur_le : (s.session k).cur ≤ (s.session k).len) (fits : (s.session k).len ≤ s.cfg.nRx) :
    Memory.wf s.cfg.nRx (Memory.store s.rxBuf (s.session k).cur (s.rxq.take (s.drainCount k))) := by
  refine store_wf _ _ _ _ h ?_
  simp only [List.length_take, State.drainCount]
  omega

/-- A session that still runs after a pump was running before it (R82). -/
theorem busy_of_epilogue {f : Session} {n cap : Nat} (h : ((f.moved n).epilogue cap).st = .inProgress) :
    f.st = .inProgress := by
  by_cases hc : f.cur + n = f.len
  · simp [hc] at h
  · simpa [hc] using h

/-- S_R's cursor advances by the bytes taken from RXQ; where none is taken the level is as before (R101 L5). -/
theorem PlantInv.pump_r {s t : State} (h : PlantInv s) (ready : PumpReady s .r) (hp : s.pump .r = .ok t) :
    PlantInv t := by
  have hrxBuf := wf_store_drained (k := .r) h.rxBuf ready.cur_le ready.fits
  have hrxq : (s.rxq.drop (s.drainCount .r)).length ≤ s.cfg.fifoCap := by
    have := h.rxq_le
    simp only [List.length_drop]
    omega
  obtain rfl := pump_r_cases s t hp
  refine { h with
    watch := ⟨h.watch.budget, fun b busy => h.watch.running b (busy_of_epilogue busy), h.watch.pcur_le, h.watch.pfill_le,
      fun busy hvalid => ?_⟩
    rxq_le := hrxq
    rxBuf := hrxBuf }
  obtain ⟨hcur, hfill⟩ := h.watch.snapshot (busy_of_epilogue busy) hvalid
  refine ⟨hcur.trans (Nat.le_add_right ..), fun heq => ?_⟩
  have hnone : s.drainCount .r = 0 := by
    have heq : s.watch.pcur = s.sR.cur + s.drainCount .r := heq
    omega
  have hsame : s.watch.pcur = s.sR.cur := by simpa [hnone] using heq
  simpa [hnone] using hfill hsame

theorem PlantInv.pump {s t : State} {k : SessionId} (h : PlantInv s) (ready : PumpReady s k) (hp : s.pump k = .ok t) :
    PlantInv t := by
  cases k with
  | t =>
    obtain rfl := pump_t_cases s t hp
    refine { h with watch := h.watch.congr rfl rfl rfl rfl, txq_le := ?_ }
    have := h.txq_le
    simp [State.fillCount]
    omega
  | r => exact h.pump_r ready hp
  | x =>
    have hrxBuf := wf_store_drained (k := .x) h.rxBuf ready.cur_le (ready.fits.trans (Nat.min_le_right ..))
    have hrxq := h.rxq_le
    obtain rfl := pump_x_cases s t hp
    refine { h with
      watch := watchInv_of_not_busy (ready.no_r rfl) h.watch.budget h.watch.pcur_le h.watch.pfill_le
      txq_le := ?_, rxq_le := ?_, rxBuf := hrxBuf }
    · simp [State.pumpedX, ready.txq rfl]
    · simp [State.pumpedX]
      omega

theorem PlantInv.tick {s : State} (h : PlantInv s) : PlantInv s.tick := by
  rcases tick_cases s with ht | ⟨b, -, busy, hb, ⟨hpos, ht⟩ | ⟨hneg, ht⟩⟩ <;> rw [ht]
  · exact h
  · have hrange := h.watch.budget b hb
    refine { h with watch := ⟨fun c hc => ?_, fun c _ hc => ?_, h.watch.pcur_le, h.watch.pfill_le, h.watch.snapshot⟩ }
    · obtain rfl := Option.some.inj hc
      omega
    · obtain rfl := Option.some.inj hc
      omega
  · have h0 := h.watch.running b busy hb
    refine { h with watch := watchInv_of_not_busy nofun (fun c hc => ?_) h.watch.pcur_le h.watch.pfill_le }
    obtain rfl := Option.some.inj hc
    omega

theorem PlantInv.arrive {s t : State} {b : Byte} (h : PlantInv s) (ha : s.arrive b = .ok t) : PlantInv t := by
  rw [arrive_eq] at ha
  obtain rfl := Except.ok.inj ha
  split
  · next room =>
    refine { h with watch := ⟨h.watch.budget, h.watch.running, h.watch.pcur_le, h.watch.pfill_le, fun busy hv => ?_⟩,
                    rxq_le := ?_ }
    · obtain ⟨hcur, hfill⟩ := h.watch.snapshot busy hv
      refine ⟨hcur, fun heq => (hfill heq).trans ?_⟩
      simp
    · simpa using room
  · exact h.setOverflow true

/-- The head of TXQ leaves: less is queued. -/
theorem PlantInv.pop {s : State} {b : Byte} {l : List Byte} (h : PlantInv s) (head : s.txq = b :: l) :
    PlantInv (s.setFifo .tx l) := by
  refine { h with watch := h.watch.congr rfl rfl rfl rfl, txq_le := ?_ }
  have := h.txq_le
  simp [head] at this ⊢
  omega

theorem PlantInv.emit {s : State} {w : WireEntry} (h : PlantInv s) (hw : w.kind = s.cfg.kind) : PlantInv (s.emit w) :=
  { h with
    watch := h.watch.congr rfl rfl rfl rfl
    wire := List.forall_mem_append.2 ⟨h.wire, List.forall_mem_singleton.2 hw⟩ }

theorem PlantInv.setShift {s : State} {b : Option Byte} (h : PlantInv s) (hb : s.cfg.kind = .spi → b = none) :
    PlantInv (s.setShift b) :=
  { h with watch := h.watch.congr rfl rfl rfl rfl, no_shift := hb }

/-! ## The watch, the FIFOs, the buffers and the rest: every step -/

/-- START's pump is ready: the cursor is 0, and on SPI the session was Idle, so that both FIFOs are empty (R88). -/
theorem pumpReady_opened {s : State} (h : Inv s) {k : SessionId} (ep : Option Endpoint) {n : Nat}
    (kind : s.cfg.kind = if k = .x then .spi else .uart) (idle : (s.session k).st = .idle) (fits : n ≤ s.capacity k) :
    PumpReady (s.opened ep n k) k where
  cur_le := by simp
  fits := by simpa [capacity_congr (opened_cfg s ep n k) k] using fits
  txq := by
    rintro rfl
    have hdrained := ((h.spi kind).drained (by simp [show s.sX.st = .idle from idle])).1
    simpa using hdrained
  no_r := by
    rintro rfl
    have hsR : (s.opened ep n .x).sR = s.sR := by cases ep <;> rfl
    simp [hsR, (h.spi kind).no_r]

/-- An enabled interrupt's pump is ready: on SPI the whole chunk is back (R88, R93). -/
theorem pumpReady_irq {s : State} (h : Inv s) {k : SessionId} (on : s.enabled (irqOf k) = true) : PumpReady s k where
  cur_le := (h.session k).cur_le
  fits := (h.session k).len_le
  txq := by
    rintro rfl
    obtain ⟨hreq, hk⟩ := (enabled_irqOf_iff s .x).1 on
    exact ((h.spi hk).oneChunk.chunk_back h.x hreq).2
  no_r := by
    rintro rfl
    obtain ⟨-, hk⟩ := (enabled_irqOf_iff s .x).1 on
    simp [(h.spi hk).no_r]

theorem CommandEffect.keeps_plantInv {i : Instr} {s t : State} (he : CommandEffect i s t) (h : Inv s) : PlantInv t := by
  cases he with
  | answered rc p => exact h.plant.respond rc p
  | started k ep len u _ kind endpoint idle _ fits pump =>
    exact ((h.plant.opened _ kind endpoint).pump (pumpReady_opened h ep kind idle fits) pump).respond .ok 0
  | checked => exact (h.plant.livenessCheck h.r.cur_le).respond .ok _
  | acked k => exact (h.plant.setSession (f := (s.session k).acknowledged) nofun rfl).respond .ok 0
  | selected cs _ kind endpoint => exact (h.plant.setSelect kind endpoint).respond .ok 0
  | reloaded r => exact (h.plant.setReload r).respond .ok 0
  | wrote B idx v _ _ inside => exact (h.plant.poke v inside).respond .ok 0

theorem EventEffect.keeps_plantInv {e : Event} {s t : State} (he : EventEffect e s t) (h : Inv s) : PlantInv t := by
  cases he with
  | skipped => exact h.plant
  | pumped k _ _ on pump => exact h.plant.pump (pumpReady_irq h on) pump
  | ticked => exact h.plant.tick
  | loaded b l _ kind _ head => exact (h.plant.pop head).setShift fun hk => by simp [kind] at hk
  | emitted b _ kind => exact (h.plant.emit (w := .uart b) kind.symm).setShift fun _ => rfl
  | arrived b _ _ _ ha => exact h.plant.arrive ha
  | exchanged r b l _ _ kind head ha => exact ((h.plant.pop head).emit (w := .spi s.cs b) kind.symm).arrive ha

theorem step_keeps_plantInv {s t : State} (h : Inv s) (hstep : step s = .next t) : PlantInv t := by
  have h' := h.takeAgentStep
  rcases step_cases s t hstep with ⟨w, i, -, -, hi⟩ | ⟨w, c, -, -, rfl⟩ | ⟨e, -, he⟩
  · exact (exec_effect i _ t hi).keeps_plantInv h'
  · exact h'.plant.respond .illegal 0
  · exact (execEvent_effect e _ t he).keeps_plantInv h'

/-- Every step keeps the machine's invariant, part by part. -/
theorem step_keeps_inv (s t : State) (h : Inv s) (hstep : step s = .next t) : Inv t := by
  have hcfg := step_cfg s t hstep
  refine inv_of_parts (hcfg ▸ h.cfg) (step_keeps_sessionsInv s t h.sessions hstep)
    (step_keeps_statusInv h.sessions h.status hstep) (step_keeps_plantInv h hstep) fun hk => ?_
  rw [hcfg] at hk
  obtain ⟨-, -, hone⟩ := step_keeps_spiChunkInv s t ⟨hk, h.sessions, (h.spi hk).oneChunk⟩ hstep
  exact hone

/-- Settles O42: `step_keeps_inv` is the statement. -/
theorem everyStepKeepsTheInvariant : Obligations.EveryStepKeepsTheInvariant :=
  step_keeps_inv

/-! ## Every step completes (R172, R184) -/

theorem onKind_completes {k : Kind} {s : State} {o : Host.Outcome State Fault Refusal}
    (h : s.cfg.kind = k → ∃ t, o = .next t) : ∃ t, onKind k s o = .next t := by
  by_cases hk : s.cfg.kind = k
  · rw [onKind_of_eq o hk]
    exact h hk
  · exact ⟨_, onKind_of_ne o hk⟩

theorem onEndpoint_completes {e : Endpoint} {s : State} {o : Host.Outcome State Fault Refusal} (h : ∃ t, o = .next t) :
    ∃ t, onEndpoint e s o = .next t := by
  by_cases he : e.toNat < s.cfg.nEp
  · simpa [onEndpoint, he] using h
  · exact ⟨_, onEndpoint_of_ge o he⟩

theorem startSession_completes {s : State} (h : Inv s) {k : SessionId} (ep : Option Endpoint) {n : Nat}
    {body : State → Except Fault State} (kind : s.cfg.kind = if k = .x then .spi else .uart)
    (hbody : body s = (s.opened ep n k).pump k) : ∃ t, startSession k n body s = .next t := by
  by_cases hrej : (s.session k).st ≠ .idle ∨ n = 0 ∨ s.capacity k < n
  · exact ⟨_, startSession_rejected k n body s hrej⟩
  · obtain ⟨idle, hn⟩ := not_or.1 hrej
    have idle := not_not.1 idle
    obtain ⟨u, hu⟩ := (pumpReady_opened h ep (n := n) kind idle (by omega)).completes
    exact ⟨_, (startSession_accepted k n body s idle (by omega) (by omega)).trans (by rw [hbody, hu]; rfl)⟩

theorem writeBuffer_completes (B : Buf) (i : Nat) (v : Byte) (s : State) : ∃ t, writeBuffer B i v s = .next t := by
  by_cases hm : (s.session (s.owner B)).st = .inProgress ∨ s.bufSize B ≤ i
  · exact ⟨_, writeBuffer_rejected hm⟩
  · obtain ⟨free, inside⟩ := not_or.1 hm
    exact ⟨_, writeBuffer_accepted free (Nat.lt_of_not_le inside)⟩

theorem readBuffer_completes (B : Buf) (i : Nat) (s : State) : ∃ t, readBuffer B i s = .next t := by
  by_cases hm : (s.session (s.owner B)).st = .inProgress ∨ s.bufSize B ≤ i
  · exact ⟨_, readBuffer_rejected hm⟩
  · obtain ⟨free, inside⟩ := not_or.1 hm
    exact ⟨_, readBuffer_accepted free (Nat.lt_of_not_le inside)⟩

/-- From the invariant every command completes: START alone could fail, and its pump is ready. -/
theorem exec_completes {s : State} (h : Inv s) (i : Instr) : ∃ t, exec i s = .next t := by
  cases i with
  | startT len => exact onKind_completes fun hk => startSession_completes (k := .t) h none hk rfl
  | startR len => exact onKind_completes fun hk => startSession_completes (k := .r) h none hk rfl
  | startX ep len =>
    refine onKind_completes fun hk => ?_
    cases ep with
    | none => exact startSession_completes (k := .x) h none hk rfl
    | some e => exact onEndpoint_completes (startSession_completes (k := .x) h (some e) hk rfl)
  | select e => exact onKind_completes fun _ => onEndpoint_completes ⟨_, rfl⟩
  | bufwrT idx data => exact writeBuffer_completes .tx idx.toNat data s
  | bufwrR idx data => exact writeBuffer_completes .rx idx.toNat data s
  | bufrdT idx => exact readBuffer_completes .tx idx.toNat s
  | bufrdR idx => exact readBuffer_completes .rx idx.toNat s
  | _ => exact onKind_completes fun _ => ⟨_, rfl⟩

/-- From the invariant every enabled event fires: an interrupt's pump is ready, and TX_LOAD and XCHG have a byte. -/
theorem fire_completes {s : State} (h : Inv s) {e : Event} (on : s.enabled e = true) : ∃ t, s.fire e = .ok t := by
  cases e with
  | irqT => exact (pumpReady_irq (k := .t) h on).completes
  | irqR => exact (pumpReady_irq (k := .r) h on).completes
  | irqX => exact (pumpReady_irq (k := .x) h on).completes
  | tick => exact ⟨_, rfl⟩
  | txLoad =>
    have hk : s.cfg.kind = .uart := by simp_all [State.enabled]
    obtain ⟨b, l, hq⟩ := List.exists_cons_of_ne_nil ((enabled_txLoad_iff hk).1 on).2
    exact ⟨_, txLoad_ok hq⟩
  | txEmit => exact ⟨_, rfl⟩
  | rxByte b => exact ⟨_, arrive_eq s b⟩
  | xchg r =>
    have hk : s.cfg.kind = .spi := by simp_all [State.enabled]
    obtain ⟨b, l, hq⟩ := List.exists_cons_of_ne_nil ((enabled_xchg_iff hk r).1 on)
    exact ⟨_, (xchg_eq hq r).trans (arrive_eq _ r)⟩

theorem execEvent_completes {s : State} (h : Inv s) (e : Event) : ∃ t, execEvent e s = .next t := by
  cases on : s.enabled e with
  | true =>
    obtain ⟨t, ht⟩ := fire_completes h on
    exact ⟨t, execEvent_of_fire on ht⟩
  | false => exact ⟨s, execEvent_of_disabled on⟩

/-- From the invariant every step completes. -/
theorem step_completes (s : State) (h : Inv s) : ∃ t, step s = .next t := by
  have h' := h.takeAgentStep
  obtain ⟨a, s', hs⟩ : ∃ a s', s.takeAgentStep = (a, s') := ⟨_, _, rfl⟩
  rw [hs] at h'
  cases a with
  | command w =>
    rw [step_of_command hs]
    unfold runCommand
    split
    · next i _ => exact exec_completes h' i
    · exact ⟨_, rfl⟩
  | event e => exact step_of_event hs ▸ execEvent_completes h' e

/-- Settles O43: `step_completes` is the statement. -/
theorem everyStepCompletes : Obligations.EveryStepCompletes :=
  step_completes

/-! ## Runs -/

/-- Where what every step keeps makes every step complete, every run completes. -/
theorem run_completes {M : Host.Core} (P : M.State → Prop) (hP : ∀ s t, P s → M.step s = .next t → P t)
    (hnext : ∀ s, P s → ∃ t, M.step s = .next t) (n : Nat) (s : M.State) (hs : P s) : ∃ t, M.run n s = .next t := by
  induction n generalizing s with
  | zero => exact ⟨s, rfl⟩
  | succ n ih =>
    obtain ⟨t, ht⟩ := hnext s hs
    simpa only [Host.Core.run, ht] using ih t (hP s t hs ht)

/-- From the invariant every run completes. -/
theorem run_completes_of_inv {s : State} (h : Inv s) (n : Nat) : ∃ t, Host.Core.run Sys2Proof.core n s = .next t :=
  run_completes (M := Sys2Proof.core) Inv step_keeps_inv step_completes n s h

/-- Settles O47: the reset state meets the invariant, whatever is scheduled. -/
theorem noRunFromResetStops : Obligations.NoRunFromResetStops :=
  fun _ l n hc => run_completes_of_inv ((inv_resetOf hc).setAgents l 0) n

/-- Settles O46: the invariant's watch, in every reachable state. -/
theorem reachableBudgetsStayInRange : Obligations.ReachableBudgetsStayInRange := by
  intro c l n t b hc hrun hb
  have ht : Inv t :=
    run_keeps (M := Sys2Proof.core) Inv step_keeps_inv n _ t ((inv_resetOf hc).setAgents l 0) hrun
  obtain ⟨h0, h1⟩ := ht.watch.budget b hb
  refine ⟨h0, h1, fun hneg busy => ?_⟩
  have := ht.watch.running b busy hb
  omega

end Sys2Proof.Machine

/-! SUPPORT. The statements about a whole session, as what every step keeps of it: the order of the bytes of a UART transmit
session (spec/43_buffer_port.md R140), the round trip of an SPI session under the loopback double (44_collaborators.md
R153), the chunks (40_pump.md R94) and the budget of a receive session to which no byte arrives (41_timeout.md R99). -/

namespace Sys2Proof.Machine

/-! ## An accepted START -/

/-- START of session `k` was accepted with length `len`, and its pump took the opened session to `u` (R109 to R112). -/
structure AcceptedStart (s u : State) (k : SessionId) (ep : Option Endpoint) (len : BitVec 16) : Prop where
  kind : s.cfg.kind = if k = .x then .spi else .uart
  pos : 1 ≤ len.toNat
  fits : len.toNat ≤ s.capacity k
  pump : (s.opened ep len.toNat k).pump k = .ok u

theorem startOf_inj {k k' : SessionId} {ep ep' : Option Endpoint} {len len' : BitVec 16}
    (h : startOf k ep len = startOf k' ep' len') : k = k' ∧ len = len' ∧ (k = .x → ep = ep') := by
  cases k <;> cases k' <;> simp_all [startOf]

/-- The endpoint operand matters to START.X alone. -/
theorem opened_congr (s : State) {k : SessionId} {ep ep' : Option Endpoint} (n : Nat) (h : k = .x → ep = ep') :
    s.opened ep n k = s.opened ep' n k := by
  cases k with
  | t => rfl
  | r => rfl
  | x => rw [h rfl]

/-- A START that takes its session out of Idle was accepted. -/
theorem accepted_of_start {s t : State} {k : SessionId} {ep : Option Endpoint} {len : BitVec 16}
    (h : exec (startOf k ep len) s = .next t) (idle : (s.session k).st = .idle) (left : (t.session k).st ≠ .idle) :
    ∃ u, AcceptedStart s u k ep len ∧ t = u.respond .ok 0 := by
  cases exec_effect _ s t h with
  | answered => exact absurd idle (by simpa using left)
  | started k' ep' len' u cmd kind _ _ pos fits pump =>
    obtain ⟨rfl, rfl, hep⟩ := startOf_inj cmd
    exact ⟨u, ⟨kind, pos, fits, opened_congr s _ hep ▸ pump⟩, rfl⟩
  | checked cmd => cases k <;> exact absurd cmd nofun
  | acked k' cmd => cases k <;> cases k' <;> exact absurd cmd nofun
  | selected _ cmd => cases k <;> simp [startOf] at cmd
  | reloaded _ cmd => cases k <;> simp [startOf] at cmd
  | wrote B _ _ cmd => cases k <;> cases B <;> exact absurd cmd nofun

/-! ## The order of a UART transmit session (R140) -/

/-- Behind `before`, what has left or will leave is TxBuf up to the cursor of S_T. -/
def SentSoFar (before : List Byte) (s : State) : Prop :=
  s.outStream = before ++ s.bytesAt .tx 0 s.sT.cur

theorem SentSoFar.congr {before : List Byte} {s t : State} (h : SentSoFar before s) (out : t.outStream = s.outStream)
    (txBuf : t.txBuf = s.txBuf) (cur : t.sT.cur = s.sT.cur) : SentSoFar before t := by
  rw [SentSoFar, out, cur, bytesAt_congr s t .tx _ _ txBuf]
  exact h

theorem SentSoFar.of_transmitHalf {before : List Byte} {s t : State} (h : SentSoFar before s)
    (kept : TransmitHalfKept s t) : SentSoFar before t := by
  obtain ⟨hsT, htxBuf, htxq, htxsh, hwire⟩ := kept
  exact h.congr (outStream_congr hwire htxsh htxq) htxBuf (by rw [hsT])

/-- `Pump(S_T)` appends the bytes from the cursor on and advances it past them (R83). -/
theorem SentSoFar.pump {before : List Byte} {s t : State} (h : SentSoFar before s) (hp : s.pump .t = .ok t) :
    SentSoFar before t := by
  have hnext := bytesAt_append s .tx 0 s.sT.cur s.fillCount
  rw [Nat.zero_add] at hnext
  obtain rfl := pump_t_cases s t hp
  calc _ = s.outStream ++ s.bytesAt .tx s.sT.cur s.fillCount := by simp [State.outStream]
    _ = before ++ (s.bytesAt .tx 0 s.sT.cur ++ s.bytesAt .tx s.sT.cur s.fillCount) := by
      rw [show s.outStream = _ from h, List.append_assoc]
    _ = before ++ s.bytesAt .tx 0 (s.sT.cur + s.fillCount) := by rw [hnext]

/-- While S_T runs, a command leaves the transmit half: START.T, ACK.T and BUFWR.T are turned away. -/
theorem CommandEffect.transmitHalf_of_busy {i : Instr} {s t : State} (h : CommandEffect i s t)
    (hk : s.cfg.kind = .uart) (busy : s.sT.st = .inProgress) : TransmitHalfKept s t := by
  cases h with
  | started k ep len u _ kind _ idle _ _ pump =>
    cases k with
    | t => simp [busy] at idle
    | r =>
      have kept : TransmitHalfKept (s.openedR len.toNat) u := pump_r_transmitHalf pump
      exact kept
    | x => simp [hk] at kind
  | checked =>
    obtain ⟨f, w, hf⟩ := livenessCheck_frame s
    rw [hf]
    exact ⟨rfl, rfl, rfl, rfl, rfl⟩
  | acked k _ done =>
    cases k with
    | t => simp [busy] at done
    | r => exact ⟨rfl, rfl, rfl, rfl, rfl⟩
    | x => exact ⟨rfl, rfl, rfl, rfl, rfl⟩
  | wrote B idx v _ free =>
    cases B with
    | tx => exact absurd busy (by simpa [State.owner, hk] using free)
    | rx => exact ⟨rfl, rfl, rfl, rfl, rfl⟩
  | _ => exact ⟨rfl, rfl, rfl, rfl, rfl⟩

theorem EventEffect.keeps_sentSoFar {e : Event} {s t : State} (he : EventEffect e s t) (hk : s.cfg.kind = .uart)
    {before : List Byte} (h : SentSoFar before s) : SentSoFar before t := by
  cases he with
  | skipped => exact h
  | pumped k _ _ on pump =>
    cases k with
    | t => exact h.pump pump
    | r => exact h.of_transmitHalf (pump_r_transmitHalf pump)
    | x => simp [enabled_irqOf_iff, hk] at on
  | ticked ev => exact h.of_transmitHalf ((EventEffect.ticked ev).transmitHalf (.inr (.inl ev)))
  | loaded b l _ _ empty head => exact h.congr (by simp [State.outStream, empty, head]) rfl rfl
  | emitted b _ _ full => exact h.congr (by simp [State.outStream, full, WireEntry.byte]) rfl rfl
  | arrived b _ ev kind ha => exact h.of_transmitHalf ((EventEffect.arrived b t ev kind ha).transmitHalf (.inr (.inr ⟨b, ev⟩)))
  | exchanged r b l _ _ kind => simp [hk] at kind

theorem takeAgentStep_transmitHalf (s : State) : TransmitHalfKept s s.takeAgentStep.2 := by
  obtain ⟨l, n, h⟩ := takeAgentStep_frame s
  rw [h]
  exact ⟨rfl, rfl, rfl, rfl, rfl⟩

/-- Settles O55: START.T's pump starts from a cursor of 0, and every step of the running session keeps `SentSoFar`. -/
theorem transmitSessionSendsTheBufferInOrder : Obligations.TransmitSessionSendsTheBufferInOrder := by
  refine ⟨fun s t n hk idle hexec left => ?_, fun s t before _ hk busy h hstep => ?_⟩
  · obtain ⟨u, hacc, rfl⟩ := accepted_of_start (k := .t) (ep := none) hexec idle left
    have hopen : SentSoFar s.outStream (s.openSession .t n.toNat) := (List.append_nil _).symm
    have hsent : SentSoFar s.outStream u := hopen.pump hacc.pump
    exact hsent
  · have h' : SentSoFar before s.takeAgentStep.2 := SentSoFar.of_transmitHalf h (takeAgentStep_transmitHalf s)
    have hk' : s.takeAgentStep.2.cfg.kind = .uart := by simpa using hk
    rcases step_cases s t hstep with ⟨w, i, -, -, hi⟩ | ⟨w, c, -, -, rfl⟩ | ⟨e, -, he⟩
    · have busy' : s.takeAgentStep.2.sT.st = .inProgress := (takeAgentStep_transmitHalf s).1 ▸ busy
      exact h'.of_transmitHalf ((exec_effect i _ t hi).transmitHalf_of_busy hk' busy')
    · exact h'.congr rfl rfl rfl
    · exact (execEvent_effect e _ t he).keeps_sentSoFar hk' h'

/-! ## The round trip of an SPI session (R87, R153) -/

/-- S_X, both buffers and both FIFOs are as before. -/
structure SpiPathKept (s t : State) : Prop where
  sX : t.sX = s.sX
  txBuf : t.txBuf = s.txBuf
  rxBuf : t.rxBuf = s.rxBuf
  txq : t.txq = s.txq
  rxq : t.rxq = s.rxq

theorem EchoSoFar.congr {s t : State} (h : EchoSoFar s) (kept : SpiPathKept s t) : EchoSoFar t := by
  obtain ⟨hback, hflight⟩ := h
  have htx : ∀ i, t.peek .tx i = s.peek .tx i := fun i => peek_congr s t .tx i kept.txBuf
  have hrx : ∀ i, t.peek .rx i = s.peek .rx i := fun i => peek_congr s t .rx i kept.rxBuf
  simp only [EchoSoFar, kept.sX, kept.txq, kept.rxq, htx, hrx]
  exact ⟨hback, hflight⟩

/-- `Pump(S_X)`, where all that waits in RXQ is what was sent, stores it at the cursor and pushes the next chunk (R85). -/
theorem pump_x_echo {s t : State} (hp : s.pump .x = .ok t) (hback : ∀ i, i < s.sX.cur → s.peek .rx i = s.peek .tx i)
    (hrxq : s.rxq = s.bytesAt .tx s.sX.cur s.rxq.length) (htxq : s.txq = [])
    (hle : s.rxq.length ≤ s.sX.len - s.sX.cur) : EchoSoFar t := by
  have hcount : s.drainCount .x = s.rxq.length := by simp only [State.drainCount, session_x]; omega
  obtain rfl := pump_x_cases s t hp
  rw [hcount]
  obtain ⟨hstored, hkept⟩ := peek_stored (s := s) (t := s.pumpedX s.rxq.length
    (min (s.sX.len - (s.sX.cur + s.rxq.length)) s.cfg.fifoCap)) (i := s.sX.cur) (Nat.le_refl _) rfl
  refine ⟨fun i hi => ?_, ?_⟩
  · have htx : ∀ n k, (s.pumpedX n k).peek .tx i = s.peek .tx i := fun n k => rfl
    rw [htx]
    by_cases hold : i < s.sX.cur
    · rw [hkept i (.inl hold), hback i hold]
    · obtain ⟨j, rfl⟩ := Nat.exists_eq_add_of_le (Nat.le_of_not_lt hold)
      have hj : j < s.rxq.length := by simpa [State.pumpedX] using hi
      have hbyte : s.rxq[j]? = some (s.peek .tx (s.sX.cur + j)) := by
        rw [hrxq]
        simp [State.bytesAt, hj]
      exact Option.some.inj ((hstored j hj).trans hbyte)
  · simp [State.pumpedX, htxq, State.bytesAt]

/-- While S_X runs, a command leaves its path: START.X, ACK.X and BUFWR are turned away. -/
theorem CommandEffect.spiPath_of_busy {i : Instr} {s t : State} (h : CommandEffect i s t) (hk : s.cfg.kind = .spi)
    (busy : s.sX.st = .inProgress) : SpiPathKept s t := by
  cases h with
  | started k ep len u _ kind _ idle =>
    cases k with
    | t => simp [hk] at kind
    | r => simp [hk] at kind
    | x => simp [busy] at idle
  | checked _ kind => simp [hk] at kind
  | acked k _ done =>
    cases k with
    | t => exact ⟨rfl, rfl, rfl, rfl, rfl⟩
    | r => exact ⟨rfl, rfl, rfl, rfl, rfl⟩
    | x => simp [busy] at done
  | wrote B idx v _ free => exact absurd busy (by simpa [State.owner, hk] using free)
  | _ => exact ⟨rfl, rfl, rfl, rfl, rfl⟩

/-- An exchange that returns the byte sent moves it from the head of TXQ to the end of RXQ, which has room (R153, R160). -/
theorem EchoSoFar.exchange {s t : State} {b : Byte} {l : List Byte} (h : EchoSoFar s)
    (room : s.rxq.length < s.cfg.fifoCap) (head : s.txq = b :: l)
    (ha : ((s.setFifo .tx l).emit (.spi s.cs b)).arrive b = .ok t) : EchoSoFar t ∧ t.sX = s.sX := by
  rw [arrive_of_room (s := (s.setFifo .tx l).emit (.spi s.cs b)) room] at ha
  obtain rfl := Except.ok.inj ha
  obtain ⟨hback, hflight⟩ := h
  refine ⟨⟨hback, ?_⟩, rfl⟩
  rw [head] at hflight
  simpa using hflight

/-- A step of an SPI block under the loopback double keeps the round trip so far, and keeps S_X running unless its last
chunk is back. -/
theorem EventEffect.keeps_echo {e : Event} {s t : State} (he : EventEffect e s t) (hinv : Inv s) (hk : s.cfg.kind = .spi)
    (busy : s.sX.st = .inProgress) (h : EchoSoFar s) (loopback : ∀ r, e = .xchg r → s.txq.head? = some r) :
    EchoSoFar t ∧ (t.sX.st = .inProgress ∨ t.sX.st = .finished ∧ t.sX.cur = t.sX.len) := by
  have hone := (hinv.spi hk).oneChunk
  cases he with
  | skipped => exact ⟨h, .inl busy⟩
  | pumped k _ _ on pump =>
    cases k with
    | t => simp [enabled_irqOf_iff, hk] at on
    | r => simp [enabled_irqOf_iff, hk] at on
    | x =>
      obtain ⟨hback, hflight⟩ := h
      obtain ⟨hall, hempty⟩ := hone.chunk_back hinv.x ((enabled_irqOf_iff s .x).1 on).1
      refine ⟨pump_x_echo pump hback ?_ hempty ?_, ?_⟩
      · rw [hempty, List.append_nil] at hflight
        rw [hall]
        exact hflight
      · have hthr := hinv.x.thr busy
        omega
      · obtain ⟨m, -, -, hX, -⟩ := pump_session s t .x pump
        have hX : t.sX = _ := hX
        rw [hX, session_x, epilogue_moved busy]
        by_cases hc : s.sX.cur + m = s.sX.len <;> simp [hc]
  | ticked => rw [tick_of_no_budget (.inl hk)]; exact ⟨h, .inl busy⟩
  | loaded b l _ kind => simp [hk] at kind
  | emitted b _ kind => simp [hk] at kind
  | arrived b _ _ kind => simp [hk] at kind
  | exchanged r b l _ ev _ head ha =>
    have hrb : b = r := by simpa [head] using loopback r ev
    subst hrb
    have room : s.rxq.length < s.cfg.fifoCap := by
      have hsum := hone.in_flight busy
      have hthr := hinv.x.thr_le
      simp [head] at hsum
      omega
    obtain ⟨hecho, hX⟩ := h.exchange room head ha
    exact ⟨hecho, .inl (by rw [hX]; exact busy)⟩

theorem takeAgentStep_spiPath (s : State) : SpiPathKept s s.takeAgentStep.2 := by
  obtain ⟨l, n, h⟩ := takeAgentStep_frame s
  rw [h]
  exact ⟨rfl, rfl, rfl, rfl, rfl⟩

/-- START.X leaves the session running with nothing received and its first chunk in flight: both FIFOs were empty (R88). -/
theorem AcceptedStart.echo {s u : State} {ep : Option Endpoint} {len : BitVec 16} (h : AcceptedStart s u .x ep len)
    (hinv : Inv s) (idle : s.sX.st = .idle) : u.sX.st = .inProgress ∧ EchoSoFar u := by
  obtain ⟨htxq, hrxq⟩ := (hinv.spi h.kind).drained (by simp [idle])
  have hX : (s.opened ep len.toNat .x).sX = s.sX.opened len.toNat := openedX_sX s ep len.toNat
  refine ⟨?_, pump_x_echo h.pump ?_ ?_ ?_ ?_⟩
  · obtain ⟨m, -, hm, hu, -⟩ := pump_session _ u .x h.pump
    have hm : m = 0 := by simpa [hrxq] using hm rfl
    have hu : u.sX = _ := hu
    have hpos := h.pos
    rw [hu, hm, session_x, hX, epilogue_moved_opened]
    exact if_neg (by omega)
  · simp [hX]
  · simp [hrxq]
  · rw [opened_txq, htxq]
  · simp [hrxq]

/-- Settles O56: START.X begins the round trip, and every step keeps it until the last chunk is back. -/
theorem loopbackSessionReturnsWhatItSent : Obligations.LoopbackSessionReturnsWhatItSent := by
  refine ⟨fun s t ep n hinv _ idle hexec left => ?_, fun s t hinv hk busy h loopback hstep => ?_⟩
  · obtain ⟨u, hacc, rfl⟩ := accepted_of_start (k := .x) hexec idle left
    obtain ⟨hbusy, hecho⟩ := hacc.echo hinv idle
    exact ⟨hbusy, hecho.congr ⟨rfl, rfl, rfl, rfl, rfl⟩⟩
  · have kept := takeAgentStep_spiPath s
    have h' := h.congr kept
    have hk' : s.takeAgentStep.2.cfg.kind = .spi := by simpa using hk
    have busy' : s.takeAgentStep.2.sX.st = .inProgress := kept.sX ▸ busy
    rcases step_cases s t hstep with ⟨w, i, -, -, hi⟩ | ⟨w, c, -, -, rfl⟩ | ⟨e, he, hs⟩
    · have hpath := (exec_effect i _ t hi).spiPath_of_busy hk' busy'
      exact .inl ⟨hpath.sX ▸ busy', h'.congr hpath⟩
    · exact .inl ⟨busy', h'.congr ⟨rfl, rfl, rfl, rfl, rfl⟩⟩
    · obtain ⟨hecho, hst⟩ := (execEvent_effect e _ t hs).keeps_echo hinv.takeAgentStep hk' busy' h' fun r hr =>
        kept.txq ▸ loopback r (by rw [he, hr])
      rcases hst with hst | ⟨hst, hend⟩
      · exact .inl ⟨hst, hecho⟩
      · exact .inr ⟨hst, hend ▸ hecho.1⟩

/-! ## The chunks of a session (R94) -/

/-- A remainder of at least one byte is one chunk more than the chunks before its last byte. -/
theorem chunks_of_pos {r cap : Nat} (hr : 1 ≤ r) (hcap : 1 ≤ cap) : (r + cap - 1) / cap = (r - 1) / cap + 1 := by
  rw [show r + cap - 1 = r - 1 + cap by omega, Nat.add_div_right _ hcap]

/-- Nothing left is no chunk left. -/
theorem chunks_zero {cap : Nat} (hcap : 1 ≤ cap) : (0 + cap - 1) / cap = 0 :=
  Nat.div_eq_of_lt (by omega)

/-- Moving a full FIFO, or all that is left, is moving one chunk. -/
theorem chunks_moved {r cap : Nat} (hr : 1 ≤ r) (hcap : 1 ≤ cap) :
    (r - min r cap + cap - 1) / cap + 1 = (r + cap - 1) / cap := by
  rw [chunks_of_pos hr hcap]
  by_cases hlast : r ≤ cap
  · rw [Nat.min_eq_left hlast, Nat.sub_self, chunks_zero hcap, Nat.div_eq_of_lt (by omega)]
  · rw [show r - min r cap + cap - 1 = r - 1 by omega]

/-- No chunk is left exactly where nothing is left. -/
theorem chunksLeft_eq_zero_iff {f : Session} {cap : Nat} (hcap : 1 ≤ cap) :
    f.chunksLeft cap = 0 ↔ f.len - f.cur = 0 := by
  by_cases h : f.len - f.cur = 0
  · simp [Session.chunksLeft, h, Nat.div_eq_of_lt (show cap - 1 < cap by omega)]
  · simp [Session.chunksLeft, h, chunks_of_pos (show 1 ≤ f.len - f.cur by omega) hcap]

/-- A running session that moves its threshold moves one chunk, and finishes exactly with the last. -/
theorem SessionInv.chunk_moved {f : Session} {cap fifoCap : Nat} (h : SessionInv f cap fifoCap)
    (busy : f.st = .inProgress) (hcap : 1 ≤ fifoCap) :
    ((f.moved f.thr).epilogue fifoCap).chunksLeft fifoCap + 1 = f.chunksLeft fifoCap ∧
      (((f.moved f.thr).epilogue fifoCap).st = .finished ↔
        ((f.moved f.thr).epilogue fifoCap).chunksLeft fifoCap = 0) := by
  have hlt := h.cur_lt busy
  have hthr := h.thr busy
  have hrest : f.len - (f.cur + f.thr) = f.len - f.cur - min (f.len - f.cur) fifoCap := by omega
  refine ⟨?_, ?_⟩
  · simp only [Session.chunksLeft, epilogue_len, epilogue_cur, moved_len, moved_cur, hrest]
    exact chunks_moved (by omega) hcap
  · rw [chunksLeft_eq_zero_iff hcap, epilogue_moved busy]
    by_cases hc : f.cur + f.thr = f.len
    · simp [hc]
    · simp only [hc, if_false]
      exact iff_of_false nofun (by omega)

theorem enabled_takeAgentStep (s : State) (e : Event) : s.takeAgentStep.2.enabled e = s.enabled e := by
  obtain ⟨l, n, h⟩ := takeAgentStep_frame s
  rw [h]
  cases e <;> rfl

/-- An enabled interrupt moves its session's threshold (R93). -/
theorem irq_moves_thr {s t : State} {id : SessionId} (hinv : Inv s) (on : s.enabled (irqOf id) = true)
    (h : execEvent (irqOf id) s = .next t) :
    t.session id = ((s.session id).moved (s.session id).thr).epilogue s.cfg.fifoCap := by
  obtain ⟨t', hfire, hpump, hcur, -⟩ := (interruptRunsThePumpAndFalls s id hinv).2.2 on
  obtain rfl := Host.Outcome.next.inj (hfire.symm.trans h)
  obtain ⟨m, -, -, hsession, -⟩ := pump_session s t' id hpump
  have hm : m = (s.session id).thr := by simpa [hsession] using hcur
  rw [hsession, hm]

/-- An event that is not a session's interrupt leaves its cursor. -/
theorem EventChange.cur_of_ne {e : Event} {s : State} {id : SessionId} {g : Session} (h : EventChange e s id g)
    (hne : e ≠ irqOf id) : g.cur = (s.session id).cur := by
  cases h with
  | kept h => rw [h]
  | pumped m ev => exact absurd ev hne
  | expired _ _ _ h => rw [h]; rfl

/-- A step that is not a session's enabled interrupt leaves the cursor of the running session. -/
theorem step_keeps_cur {s t : State} {id : SessionId} (busy : (s.session id).st = .inProgress) (hstep : step s = .next t)
    (hother : ¬ (s.takeAgentStep.1 = .event (irqOf id) ∧ s.enabled (irqOf id) = true)) :
    (t.session id).cur = (s.session id).cur := by
  by_cases hev : s.takeAgentStep.1 = .event (irqOf id)
  · have off : s.takeAgentStep.2.enabled (irqOf id) = false := by
      rw [enabled_takeAgentStep, Bool.eq_false_iff]
      exact fun on => hother ⟨hev, on⟩
    rw [step_of_event (Prod.ext hev rfl), execEvent_of_disabled off] at hstep
    rw [← Host.Outcome.next.inj hstep, takeAgentStep_session]
  · rcases step_change s t hstep id with hk | ⟨i, -, hc⟩ | ⟨e, he, hc⟩
    · rw [hk]
    · exact (hc.cursor_of_busy busy).2
    · exact hc.cur_of_ne fun h => hev (by rw [he, h])

/-- The bytes that `Pump(S)` moves (R83 to R85). -/
def State.pumpCount (s : State) : SessionId → Nat
  | .t => s.fillCount
  | .r => s.drainCount .r
  | .x => s.drainCount .x

theorem pump_session_eq {s t : State} {id : SessionId} (h : s.pump id = .ok t) :
    t.session id = ((s.session id).moved (s.pumpCount id)).epilogue s.cfg.fifoCap := by
  cases id with
  | t => simp [pump_t_cases s t h, State.pumpCount]
  | r => simp [pump_r_cases s t h, State.pumpCount]
  | x => simp [pump_x_cases s t h, State.pumpCount, State.pumpedX]

/-- What an accepted START's pump left of the length `len`, in chunks. -/
theorem AcceptedStart.chunksLeft {s u : State} {k : SessionId} {ep : Option Endpoint} {len : BitVec 16} {m : Nat}
    (h : AcceptedStart s u k ep len) (hm : (s.opened ep len.toNat k).pumpCount k = m) (cap : Nat) :
    (u.session k).chunksLeft cap = (len.toNat - m + cap - 1) / cap := by
  rw [pump_session_eq h.pump, hm]
  simp [Session.chunksLeft]

/-- Settles O57: the interrupt moves the threshold, no other step the cursor; and what each START's pump moves. -/
theorem sessionsTakeOneInterruptPerChunk : Obligations.SessionsTakeOneInterruptPerChunk := by
  refine ⟨fun s t id hinv busy hstep => ?_, fun s t n hinv _ idle htxq hexec left => ?_,
    fun s t n _ _ idle hrxq hexec left => ?_, fun s t ep n hinv hk idle hexec left => ?_⟩
  · split
    · next hirq =>
      obtain ⟨hev, on⟩ := hirq
      rw [step_of_event (Prod.ext hev rfl)] at hstep
      have hmoved := irq_moves_thr hinv.takeAgentStep (by rwa [enabled_takeAgentStep]) hstep
      rw [takeAgentStep_session, takeAgentStep_cfg] at hmoved
      rw [execEvent_cfg _ _ t hstep, takeAgentStep_cfg, hmoved]
      exact (hinv.session id).chunk_moved busy hinv.cfg.1.1
    · next hother => exact step_keeps_cur busy hstep hother
  · obtain ⟨u, hacc, rfl⟩ := accepted_of_start (k := .t) (ep := none) hexec idle left
    have hcount : (s.openSession .t n.toNat).fillCount = min n.toNat s.cfg.fifoCap := by
      simp [openSession_t_fillCount, htxq]
    exact (congrArg (· + 1) (hacc.chunksLeft hcount _)).trans (chunks_moved hacc.pos hinv.cfg.1.1)
  · obtain ⟨u, hacc, rfl⟩ := accepted_of_start (k := .r) (ep := none) hexec idle left
    have hcount : (s.openedR n.toNat).drainCount .r = 0 := by simp [openedR_drainCount, hrxq]
    exact hacc.chunksLeft hcount _
  · obtain ⟨u, hacc, rfl⟩ := accepted_of_start (k := .x) hexec idle left
    have hrxq := ((hinv.spi hk).drained (by simp [idle])).2
    have hcount : (s.openedX ep n.toNat).drainCount .x = 0 := by simp [hrxq]
    exact hacc.chunksLeft hcount _

/-! ## The budget of a receive session to which no byte arrives (R99) -/

/-- S_R runs with a budget of `b`, nothing received and RXQ empty. -/
structure WaitsWithBudget (s : State) (b : Int) : Prop where
  kind : s.cfg.kind = .uart
  busy : s.sR.st = .inProgress
  cur : s.sR.cur = 0
  rxq : s.rxq = []
  tmo : s.watch.tmo = some b

theorem WaitsWithBudget.congr {s t : State} {b : Int} (h : WaitsWithBudget s b) (cfg : t.cfg = s.cfg) (sR : t.sR = s.sR)
    (watch : t.watch.tmo = s.watch.tmo) (rxq : t.rxq = s.rxq) : WaitsWithBudget t b :=
  ⟨cfg ▸ h.kind, sR ▸ h.busy, sR ▸ h.cur, rxq ▸ h.rxq, watch ▸ h.tmo⟩

theorem WaitsWithBudget.of_receiveHalf {s t : State} {b : Int} (h : WaitsWithBudget s b) (cfg : t.cfg = s.cfg)
    (kept : ReceiveHalfKept s t) : WaitsWithBudget t b := by
  obtain ⟨hsR, hwatch, -, hrxq, -⟩ := kept
  exact h.congr cfg hsR (by rw [hwatch]) hrxq

/-- The liveness check of a session that holds no byte records the snapshots (R101, L0, L6 or L3). -/
theorem livenessCheck_of_no_byte {s : State} (hcur : s.sR.cur = 0) (hlen : s.sR.cur ≠ s.sR.len) (hrxq : s.rxq = []) :
    s.livenessCheck = s.recordSnapshot := by
  have hpos : ¬ 0 = s.sR.len := hcur ▸ hlen
  simp [State.livenessCheck, hcur, hrxq, hpos]

/-- No command ends the wait: START.R and ACK.R are turned away, and STATUS.R records the snapshots. -/
theorem CommandEffect.keeps_wait {i : Instr} {s t : State} {b : Int} (he : CommandEffect i s t) (hinv : Inv s)
    (h : WaitsWithBudget s b) : WaitsWithBudget t b := by
  cases he with
  | answered => exact h.congr rfl rfl rfl rfl
  | started k ep len u _ kind _ idle _ _ pump =>
    cases k with
    | t =>
      have kept : ReceiveHalfKept (s.openSession .t len.toNat) u := pump_t_receiveHalf pump
      exact h.of_receiveHalf (pump_cfg (s.openSession .t len.toNat) u .t pump) kept
    | r => simp [h.busy] at idle
    | x => simp [h.kind] at kind
  | checked =>
    rw [livenessCheck_of_no_byte h.cur (hinv.r.cur_lt h.busy).ne h.rxq]
    exact h.congr rfl rfl rfl rfl
  | acked k _ done =>
    cases k with
    | t => exact h.congr rfl rfl rfl rfl
    | r => simp [h.busy] at done
    | x => exact h.congr rfl rfl rfl rfl
  | selected _ _ kind => simp [h.kind] at kind
  | reloaded => exact h.congr rfl rfl rfl rfl
  | wrote B => cases B <;> exact h.congr rfl rfl rfl rfl

/-- No event but TICK and RX_BYTE touches the wait: S_R's request needs a byte in RXQ. -/
theorem EventEffect.keeps_wait {e : Event} {s t : State} {b : Int} (he : EventEffect e s t) (hinv : Inv s)
    (h : WaitsWithBudget s b) (htick : e ≠ .tick) (hbyte : ∀ c, e ≠ .rxByte c) : WaitsWithBudget t b := by
  cases he with
  | skipped => exact h
  | pumped k _ _ on pump =>
    obtain ⟨hreq, kind⟩ := (enabled_irqOf_iff s k).1 on
    cases k with
    | t => exact h.of_receiveHalf (pump_cfg _ t .t pump) (pump_t_receiveHalf pump)
    | r =>
      have hthr := (hinv.r.enableInvariant hinv.cfg.1.1).1 (ie_of_enabled s .r on)
      have hlevel := ((req_r_iff s).1 hreq).2
      simp [h.rxq] at hlevel
      omega
    | x => simp [h.kind] at kind
  | ticked ev => exact absurd ev htick
  | loaded => exact h.congr rfl rfl rfl rfl
  | emitted => exact h.congr rfl rfl rfl rfl
  | arrived c _ ev => exact absurd ev (hbyte c)
  | exchanged _ _ _ _ _ kind => simp [h.kind] at kind

/-- A step other than TICK and RX_BYTE keeps the wait. -/
theorem step_keeps_wait {s t : State} {b : Int} {a : AgentStep} {rest : List AgentStep} (hinv : Inv s)
    (h : WaitsWithBudget s b) (hs : s.schedule = a :: rest) (htick : a ≠ .event .tick)
    (hbyte : ∀ c, a ≠ .event (.rxByte c)) (hstep : step s = .next t) : WaitsWithBudget t b := by
  have ha : s.takeAgentStep.1 = a := by rw [takeAgentStep_cons s a rest hs]
  have hinv' := hinv.takeAgentStep
  have h' : WaitsWithBudget s.takeAgentStep.2 b := by
    rw [takeAgentStep_cons s a rest hs]
    exact h.congr rfl rfl rfl rfl
  rcases step_cases s t hstep with ⟨w, i, -, -, hi⟩ | ⟨w, c, -, -, rfl⟩ | ⟨e, he, hs⟩
  · exact (exec_effect i _ t hi).keeps_wait hinv' h'
  · exact h'.congr rfl rfl rfl rfl
  · rw [ha] at he
    exact (execEvent_effect e _ t hs).keeps_wait hinv' h' (fun h => htick (by rw [he, h]))
      (fun c h => hbyte c (by rw [he, h]))

/-- A step takes the head of the schedule (log 1). -/
theorem step_schedule {s t : State} {a : AgentStep} {rest : List AgentStep} (hs : s.schedule = a :: rest)
    (hstep : step s = .next t) : t.schedule = rest := by
  have hrest : s.takeAgentStep.2.schedule = rest := by rw [takeAgentStep_cons s a rest hs]
  rcases step_cases s t hstep with ⟨w, i, -, -, hi⟩ | ⟨w, c, -, -, rfl⟩ | ⟨e, -, he⟩
  · rw [(exec_effect i _ t hi).schedule, hrest]
  · exact hrest
  · rw [(execEvent_effect e _ t he).schedule, hrest]

/-- A TICK of the wait counts the budget down, and at 0 or below it ends S_R TimedOut (R98). -/
theorem step_tick_of_wait {s t : State} {b : Int} {rest : List AgentStep} (h : WaitsWithBudget s b)
    (hs : s.schedule = .event .tick :: rest) (hstep : step s = .next t) :
    (1 < b → WaitsWithBudget t (b - 1)) ∧ (b ≤ 1 → t.sR.st = .timedOut) := by
  have htake := takeAgentStep_cons s _ rest hs
  rw [step_of_event htake, execEvent_tick] at hstep
  have htick := tick_of_budget (s := { s with schedule := rest }) h.kind h.busy h.tmo
  rw [← Host.Outcome.next.inj hstep, htick]
  refine ⟨fun hleft => ?_, fun hout => ?_⟩
  · rw [if_neg (by omega)]
    exact ⟨h.kind, h.busy, h.cur, h.rxq, rfl⟩
  · rw [if_pos (by omega)]
    rfl

theorem run_succ_eq_next {M : Host.Core} {n : Nat} {s t : M.State} (h : M.run (n + 1) s = .next t) :
    ∃ s', M.step s = .next s' ∧ M.run n s' = .next t := by
  unfold Host.Core.run at h
  split at h
  · next s' hstep => exact ⟨s', hstep, h⟩
  · exact absurd h nofun
  · exact absurd h nofun

/-- The last of a list with more than one element is the last of its tail. -/
theorem getLast?_of_cons {α : Type} {a x : α} {l : List α} (h : (a :: l).getLast? = some x) (hl : l ≠ []) :
    l.getLast? = some x := by
  obtain ⟨b, l', rfl⟩ := List.exists_cons_of_ne_nil hl
  rwa [List.getLast?_cons_cons] at h

/-- What a schedule without RX_BYTE makes of a session that waits with a budget of `B` (R99). -/
theorem run_of_wait (l : List AgentStep) (s t : State) (B : Nat) (hinv : Inv s) (h : WaitsWithBudget s B)
    (hs : s.schedule = l) (hbyte : ∀ c, AgentStep.event (.rxByte c) ∉ l)
    (hrun : Host.Core.run Sys2Proof.core l.length s = .next t) :
    (l.count (.event .tick) < max B 1 → t.sR.st = .inProgress) ∧
      (l.count (.event .tick) = max B 1 → l.getLast? = some (.event .tick) → t.sR.st = .timedOut) := by
  induction l generalizing s B with
  | nil =>
    obtain rfl := Host.Outcome.next.inj hrun
    exact ⟨fun _ => h.busy, fun _ hlast => absurd hlast nofun⟩
  | cons a l ih =>
    obtain ⟨s', hstep, hrest⟩ := run_succ_eq_next hrun
    have hinv' := step_keeps_inv s s' hinv hstep
    have hs' := step_schedule hs hstep
    have hbyte' : ∀ c, AgentStep.event (.rxByte c) ∉ l := fun c hc => hbyte c (List.mem_cons_of_mem a hc)
    by_cases htick : a = .event .tick
    · subst htick
      rw [List.count_cons_self]
      obtain ⟨hcounts, hexpires⟩ := step_tick_of_wait h hs hstep
      by_cases hB : 1 < B
      · have hwait : WaitsWithBudget s' ((B - 1 : Nat) : Int) := by
          have hcast : ((B - 1 : Nat) : Int) = B - 1 := by omega
          exact hcast ▸ hcounts (by omega)
        obtain ⟨hbusy, hout⟩ := ih s' (B - 1) hinv' hwait hs' hbyte' hrest
        refine ⟨fun hcount => hbusy (by omega), fun hcount hlast => hout (by omega) (getLast?_of_cons hlast ?_)⟩
        rintro rfl
        simp at hcount
        omega
      · have hout := hexpires (by omega)
        refine ⟨fun hcount => by omega, fun hcount hlast => ?_⟩
        have hnone : l.count (.event .tick) = 0 := by omega
        have hnil : l = [] := by
          by_contra hl
          exact List.count_eq_zero.1 hnone (List.mem_of_getLast? (getLast?_of_cons hlast hl))
        subst hnil
        exact Host.Outcome.next.inj hrest ▸ hout
    · rw [List.count_cons_of_ne htick]
      have hother : ∀ c, a ≠ .event (.rxByte c) := fun c hc => hbyte c (hc ▸ List.mem_cons_self)
      have hwait := step_keeps_wait hinv h hs htick hother hstep
      obtain ⟨hbusy, hout⟩ := ih s' B hinv' hwait hs' hbyte' hrest
      refine ⟨hbusy, fun hcount hlast => hout hcount (getLast?_of_cons hlast ?_)⟩
      rintro rfl
      exact htick (Option.some.inj hlast)

/-- Settles O58: the run completes from the invariant, and `run_of_wait` says where it ends. -/
theorem budgetExpiresAtExactlyItsLastTick : Obligations.BudgetExpiresAtExactlyItsLastTick := by
  intro s B hinv hk busy hcur hrxq htmo hbyte
  obtain ⟨t, hrun⟩ := run_completes_of_inv hinv s.schedule.length
  exact ⟨t, hrun, run_of_wait s.schedule s t B hinv ⟨hk, busy, hcur, hrxq, htmo⟩ rfl hbyte hrun⟩

end Sys2Proof.Machine
